-- ==== Sys2Proof/Word.lean ====
section
/-! DEFINITION. The word types of the engine (00_scope.md R11) and nothing else. -/
namespace Sys2Proof

/-- A byte: 8 bits, bit 0 the least significant (R11). -/
abbrev Byte := BitVec 8

/-- A command word or a host register: 32 bits (R24, R25). -/
abbrev Word := BitVec 32

end Sys2Proof
end

