-- ==== Sys2Proof/Config.lean ====
section
/-! DEFINITION. What one configuration of the engine fixes: the record `cfg` of 00_scope.md R6, its field layout (R8),
the illustrative configuration EX of 95_test_vectors.md, and the one value no source gives: which configuration is
installed. -/
namespace Sys2Proof

/-- The ten display fields, in the order of the source's table (30_encoding.md R72). -/
inductive Field where
  | signal | bell | hour | minute | score | battery | temp1 | temp2 | humidity | co2
  deriving DecidableEq, Repr

/-- Every field once (R72). -/
def Field.all : List Field :=
  [.signal, .bell, .hour, .minute, .score, .battery, .temp1, .temp2, .humidity, .co2]

/-- The field layout of R8: byte indices and masks under the spec's parameter names. -/
structure Layout where
  sigB1 : Nat
  sigM1 : Byte
  sigM2 : Byte
  sigM3 : Byte
  sigB4 : Nat
  sigM4 : Byte
  sigB5 : Nat
  sigM5 : Byte
  bellB : Nat
  bellM : Byte
  hourA : Nat
  hourB : Nat
  hourC : Nat
  minA : Nat
  minB : Nat
  minC : Nat
  scoreA : Nat
  scoreB : Nat
  scoreC : Nat
  batB1 : Nat
  batM1 : Byte
  batB2 : Nat
  t1T : Nat
  t1U : Nat
  t2T : Nat
  t2U : Nat
  humT : Nat
  humU : Nat
  co2H : Nat
  co2T : Nat
  co2U : Nat
  deriving DecidableEq, Repr, Inhabited

/-- The four configuration command bytes of INIT, in the order they are sent (R6, R82). -/
structure InitCmds where
  display : Byte
  blanking : Byte
  power : Byte
  mode : Byte
  deriving DecidableEq, Repr, Inhabited

/-- The configuration record `cfg` (R6). `ACK_US` is no field of its own: it is `2 * UNIT_US` (`Config.ackUs`).
`clkReset` and `datReset` are the draws of the first reset (R220, decision D14). -/
structure Config where
  n : Nat
  unitUs : Nat
  startupMs : Nat
  deviceAddr : Byte
  regSel : Byte
  initCmds : InitCmds
  initAddrPrefix : Bool
  setupClk : Bool
  setupDat : Bool
  clkReset : Bool
  datReset : Bool
  ta : Vector Byte 11
  tb : Vector Byte 11
  defaultPattern : List Byte
  layout : Layout
  deriving DecidableEq, Repr, Inhabited

/-- `ACK_US = 2 * UNIT_US` (R6, R232). -/
def Config.ackUs (c : Config) : Nat := 2 * c.unitUs

/-- The four bytes of `INIT_CMDS` as the sequence INIT sends (R82). -/
def InitCmds.bytes (k : InitCmds) : List Byte := [k.display, k.blanking, k.power, k.mode]

/-- The layout of the example configuration EX (95_test_vectors.md section 1). -/
def Layout.ex : Layout where
  sigB1 := 9
  sigM1 := 0x01
  sigM2 := 0x02
  sigM3 := 0x04
  sigB4 := 2
  sigM4 := 0x01
  sigB5 := 5
  sigM5 := 0x01
  bellB := 1
  bellM := 0x10
  hourA := 0
  hourB := 1
  hourC := 2
  minA := 3
  minB := 4
  minC := 5
  scoreA := 6
  scoreB := 7
  scoreC := 8
  batB1 := 6
  batM1 := 0x10
  batB2 := 8
  t1T := 10
  t1U := 11
  t2T := 12
  t2U := 13
  humT := 14
  humU := 15
  co2H := 16
  co2T := 17
  co2U := 18

/-- The example configuration EX (95_test_vectors.md section 1, decision D32). It is NOT the hardware's configuration:
the tests use it, and nothing of the machine rests on its values. -/
def Config.ex : Config where
  n := 26
  unitUs := 3
  startupMs := 10
  deviceAddr := 0x5A
  regSel := 0x3C
  initCmds := { display := 0x11, blanking := 0x22, power := 0x33, mode := 0x44 }
  initAddrPrefix := true
  setupClk := true
  setupDat := true
  clkReset := false
  datReset := false
  ta := #v[0x40, 0x3F, 0x06, 0x5B, 0x4F, 0x66, 0x6D, 0x7D, 0x07, 0x7F, 0x6F]
  tb := #v[0x80, 0x77, 0x06, 0xB3, 0x97, 0xC6, 0xD5, 0xF5, 0x07, 0xF7, 0xD7]
  defaultPattern := List.replicate 19 0x00 ++ [0xA5] ++ List.replicate 6 0x00
  layout := Layout.ex

/-- FREE VALUE. The configuration this engine was built with: every parameter R6 marks OPEN, and N and UNIT_US with
them. No body, so no proof can see a value of it (log entry 1). -/
opaque Config.built : Config

end Sys2Proof
end

