-- ==== Sys2Proof/Syntax.lean ====
section
/-! DEFINITION. The commands: one constructor per row of spec/opcode_table.json (30_encoding.md R71, R72, R84). -/
namespace Sys2Proof

/-- A command of the engine. The operand of a `SETF` is the integer `sext_16(VAL)` (R73). A field type 0xA to 0xF keeps
its operand too, though the command does not examine it (43_field_encoder.md R151), so that a command stands for one
word. -/
inductive Instr where
  | init
  | clr
  | fill
  | ldef
  | setfSignal (value : Int)
  | setfBell (value : Int)
  | setfHour (value : Int)
  | setfMinute (value : Int)
  | setfScore (value : Int)
  | setfBattery (value : Int)
  | setfTemp1 (value : Int)
  | setfTemp2 (value : Int)
  | setfHumidity (value : Int)
  | setfCo2 (value : Int)
  | setf10 (value : Int)
  | setf11 (value : Int)
  | setf12 (value : Int)
  | setf13 (value : Int)
  | setf14 (value : Int)
  | setf15 (value : Int)
  deriving DecidableEq, Repr

/-- The row's mnemonic in spec/opcode_table.json. -/
def Instr.mnemonic : Instr → String
  | .init => "INIT"
  | .clr => "CLR"
  | .fill => "FILL"
  | .ldef => "LDEF"
  | .setfSignal _ => "SETF_SIGNAL"
  | .setfBell _ => "SETF_BELL"
  | .setfHour _ => "SETF_HOUR"
  | .setfMinute _ => "SETF_MINUTE"
  | .setfScore _ => "SETF_SCORE"
  | .setfBattery _ => "SETF_BATTERY"
  | .setfTemp1 _ => "SETF_TEMP1"
  | .setfTemp2 _ => "SETF_TEMP2"
  | .setfHumidity _ => "SETF_HUMIDITY"
  | .setfCo2 _ => "SETF_CO2"
  | .setf10 _ => "SETF__10"
  | .setf11 _ => "SETF__11"
  | .setf12 _ => "SETF__12"
  | .setf13 _ => "SETF__13"
  | .setf14 _ => "SETF__14"
  | .setf15 _ => "SETF__15"

/-- The value operand, for the commands that carry one (R73, R74). -/
def Instr.operand : Instr → Option Int
  | .init | .clr | .fill | .ldef => none
  | .setfSignal v | .setfBell v | .setfHour v | .setfMinute v | .setfScore v | .setfBattery v | .setfTemp1 v
  | .setfTemp2 v | .setfHumidity v | .setfCo2 v => some v
  | .setf10 v | .setf11 v | .setf12 v | .setf13 v | .setf14 v | .setf15 v => some v

end Sys2Proof
end

