-- ==== Sys2Proof/WellFormed.lean ====
section
/-! DEFINITION. What is admitted: a command whose value a word can carry (30_encoding.md R73, R79), and a configuration
that meets 00_scope.md R7 and R8. A configuration that fails a check is refused, so that there is no machine for it
(R7). -/
namespace Sys2Proof

/-- The values a 16-bit two's complement `VAL` can spell (R73, R79). -/
def valueFits (v : Int) : Bool := decide (-32768 ≤ v) && decide (v ≤ 32767)

/-- A command is well formed when its value, if it has one, is spelled by some `VAL` (R73, R79). A value that fits but
lies outside its field's range is well formed: the engine reports RANGE_ERROR when it runs (R79). -/
def Instr.wellFormed (i : Instr) : Bool :=
  match i.operand with
  | none => true
  | some v => valueFits v

/-- Exactly one bit set (R8). -/
def oneBit (m : Byte) : Bool := (List.range 8).countP (fun k => m.getLsbD k) == 1

/-- The footprint of a field, as its (byte index, mask) entries (43_field_encoder.md R163). -/
def Layout.footprint (l : Layout) : Field → List (Nat × Byte)
  | .signal => [(l.sigB1, l.sigM1 ||| l.sigM2 ||| l.sigM3), (l.sigB4, l.sigM4), (l.sigB5, l.sigM5)]
  | .bell => [(l.bellB, l.bellM)]
  | .hour => [(l.hourA, 0x0F), (l.hourB, 0xEF), (l.hourC, 0xE0)]
  | .minute => [(l.minA, 0x0F), (l.minB, 0xEF), (l.minC, 0xE0)]
  | .score => [(l.scoreA, 0x0F), (l.scoreB, 0xEF), (l.scoreC, 0xE0)]
  | .battery => [(l.batB1, l.batM1), (l.batB2, 0x0F)]
  | .temp1 => [(l.t1T, 0x7F), (l.t1U, 0x7F)]
  | .temp2 => [(l.t2T, 0x7F), (l.t2U, 0x7F)]
  | .humidity => [(l.humT, 0x7F), (l.humU, 0x7F)]
  | .co2 => [(l.co2H, 0x7F), (l.co2T, 0x7F), (l.co2U, 0x7F)]

/-- The bits of byte `i` inside a list of footprint entries. -/
def maskAt (i : Nat) : List (Nat × Byte) → Byte
  | [] => 0
  | (j, m) :: rest => if i = j then m ||| maskAt i rest else maskAt i rest

/-- The footprint of field `f` at byte `i` (R163). -/
def Layout.footprintAt (l : Layout) (f : Field) (i : Nat) : Byte := maskAt i (l.footprint f)

/-- The structural constraints of R8's table, row by row. -/
def Layout.shaped (l : Layout) : Bool :=
  (decide ([l.sigB1, l.sigB4, l.sigB5].Nodup) && [l.sigM1, l.sigM2, l.sigM3, l.sigM4, l.sigM5].all oneBit
    && decide ([l.sigM1, l.sigM2, l.sigM3].Nodup))
  && oneBit l.bellM
  && decide ([l.hourA, l.hourB, l.hourC].Nodup)
  && decide ([l.minA, l.minB, l.minC].Nodup)
  && decide ([l.scoreA, l.scoreB, l.scoreC].Nodup)
  && (decide (l.batB1 ≠ l.batB2) && oneBit l.batM1)
  && decide (l.t1T ≠ l.t1U)
  && decide (l.t2T ≠ l.t2U)
  && decide (l.humT ≠ l.humU)
  && decide ([l.co2H, l.co2T, l.co2U].Nodup)

/-- Every index of the layout is below `n` (R8). -/
def Layout.within (l : Layout) (n : Nat) : Bool :=
  Field.all.all fun f => (l.footprint f).all fun e => decide (e.1 < n)

/-- At every byte index below `n`, the footprints of different fields have no bit in common (R8). -/
def Layout.disjointFields (l : Layout) (n : Nat) : Bool :=
  (List.range n).all fun i => Field.all.all fun f => Field.all.all fun g =>
    decide (f = g) || decide (l.footprintAt f i &&& l.footprintAt g i = 0)

/-- The bytes that show a Table A digit: those `PutA` and `OrA` write (42_segment_tables.md R136, R137). -/
def Layout.tableABytes (l : Layout) : List Nat :=
  [l.t1T, l.t1U, l.t2T, l.t2U, l.humT, l.humU, l.co2H, l.co2T, l.co2U]

/-- Bit 7 of every Table A byte is in no field's footprint, as 43_field_encoder.md R166 says of the layouts it speaks of.
It is no condition of admission, since R8 is not: a claim that needs it takes it as a premise (log entry 20). -/
def Layout.reservesTopBits (l : Layout) : Bool :=
  l.tableABytes.all fun i => Field.all.all fun f => !(l.footprintAt f i).getLsbD 7

/-- A configuration is admitted when `N ≥ 1`, every Table A entry has bit 7 equal to 0, `DEFAULT` has `N` bytes (R6,
R7), and the layout meets R8. That nothing else is asked of it is DEDUCED from decisions D22 and D38 (log entry 20). -/
def Config.admitted (c : Config) : Bool :=
  decide (1 ≤ c.n) && c.ta.toList.all (fun e => !e.getLsbD 7) && decide (c.defaultPattern.length = c.n)
  && c.layout.shaped && c.layout.within c.n && c.layout.disjointFields c.n

/-- A configuration together with the check it passed: a refused configuration has no machine (R7, decision D38). -/
structure AdmittedConfig where
  config : Config
  ok : config.admitted = true
  deriving DecidableEq, Repr

/-- EX is admissible under R7 and R8, as 95_test_vectors.md section 1 says. -/
theorem Config.ex_admitted : Config.ex.admitted = true := by decide

/-- EX as an admitted configuration. -/
def AdmittedConfig.ex : AdmittedConfig := ⟨Config.ex, Config.ex_admitted⟩

/-- The installed configuration: the free configuration `Config.built`, which is admitted or has no machine. EX stands in
the second branch only because a Lean definition must answer there too (log entry 1). -/
def AdmittedConfig.installed : AdmittedConfig :=
  if h : Config.built.admitted = true then ⟨Config.built, h⟩ else AdmittedConfig.ex

end Sys2Proof
end

