-- ==== Sys2Proof/Machine/State.lean ====
section
/-! DEFINITION. The state of the engine as plain data (10_state.md R20 to R32), the reasons a step can stop, and the
state after reset (70_reset_and_hazards.md R220). -/
namespace Sys2Proof.Machine

/-- A line event: what a command emits (00_scope.md R12, R31). `true` is high (R13). -/
inductive Event where
  | setClk (b : Bool)
  | setDat (b : Bool)
  | waitUs (us : Nat)
  | waitMs (ms : Nat)
  | setup
  deriving DecidableEq, Repr

/-- What the world outside can do to the engine: one access of the host to a register, with its byte offset and its
width in bits (20_memory.md R52, R54; 60_exceptions.md R212), or a power-on reset with the line levels it draws
(R220, decision D14). -/
inductive HostAction where
  | write (offset width : Nat) (data : Word)
  | read (offset width : Nat)
  | powerOn (clk dat : Bool)
  deriving DecidableEq, Repr

/-- What the host gets back from an access (R212): the completion of a write, or the word a read returns. -/
inductive HostReply where
  | written
  | value (data : Word)
  deriving DecidableEq, Repr

/-- Why the machine would stop with a fault: no reason exists. The block has no traps (R204), an error is a result code
(R200), and no command can form an index outside Display Memory (R55). -/
inductive Fault where
  deriving DecidableEq, Repr

/-- Why the model has no transition. -/
inductive Refusal where
  /-- An instruction without a meaning yet. No arm of `exec` raises it. Safe. -/
  | notModelled (mnemonic : String)
  /-- A host access at an offset other than 0x0 and 0x4, or of a width other than 32 bits (R52, R54, I20), raised by
  `step` and by no command. Safe: the spec gives such an access no transition. -/
  | hostAccess (offset width : Nat)
  deriving DecidableEq, Repr

/-- Display Memory, as the bytes that differ from what an unlisted index reads as, by rising index (log entry 3). -/
abbrev Memory := List Host.Cell

/-- The state of one engine. `cfg` is read-only (log entry 1). `clk`, `dat`, `dm` and `result` are the tuple of R20.
`trace` is the engine's output since the last reset (R31, log entry 4). `inbox` and `replies` are the two sides of the
host port, oldest first (R25, R212, log entry 5). -/
structure State where
  cfg : AdmittedConfig
  clk : Bool
  dat : Bool
  dm : Memory
  result : Word
  trace : List Event
  inbox : List HostAction
  replies : List HostReply
  deriving DecidableEq, Repr

/-- The configuration record of this engine. -/
abbrev State.config (s : State) : Config := s.cfg.config

/-- A reset of an engine of configuration `cfg` that draws the line levels `clk` and `dat`: DM is DEFAULT, so no byte
is listed; RESULT is 0; the trace is empty (R220). -/
def State.afterReset (cfg : AdmittedConfig) (clk dat : Bool) : State where
  cfg := cfg
  clk := clk
  dat := dat
  dm := []
  result := 0
  trace := []
  inbox := []
  replies := []

/-- The machine right after reset (R220), with the installed configuration and its two draws (log entries 1 and 2). -/
def State.reset : State :=
  State.afterReset AdmittedConfig.installed AdmittedConfig.installed.config.clkReset
    AdmittedConfig.installed.config.datReset

end Sys2Proof.Machine
end

