-- ==== Sys2Proof/Machine/Flags.lean ====
section
/-! DEFINITION. The engine has no flags (10_state.md R29). Its one status is `RESULT.CODE`: the four result codes
(60_exceptions.md R200), and the one write and the one read of the register (R24). -/
namespace Sys2Proof.Machine

/-- `RESULT.CODE` 0: the command completed (R200). -/
def codeOk : BitVec 2 := 0

/-- `RESULT.CODE` 1: RANGE_ERROR (R200). -/
def codeRange : BitVec 2 := 1

/-- `RESULT.CODE` 2: UNKNOWN_FIELD (R200). -/
def codeUnknown : BitVec 2 := 2

/-- `RESULT.CODE` 3: ILLEGAL_COMMAND (R200). -/
def codeIllegal : BitVec 2 := 3

/-- `RESULT <- c`: bits 1:0 take the code, bits 31:2 are hard-wired 0 (R24). -/
def State.setResult (code : BitVec 2) (s : State) : State := { s with result := code.zeroExtend 32 }

/-- What a read of `RESULT` gives: `CODE` in bits 1:0, 0 in bits 31:2, whatever the data hold (R24). -/
def State.readResult (s : State) : Word := (s.result.extractLsb' 0 2).zeroExtend 32

end Sys2Proof.Machine
end

