-- ==== Sys2Proof/Machine/Ops.lean ====
section
/-! DEFINITION. The named operations every command is built from: Display Memory (10_state.md R23, 20_memory.md R53, R62,
R63), the line driver and the waits (40_bus_protocol.md R100 to R103), ending a command, and raising an error
(00_scope.md R12, 60_exceptions.md R200, R201). -/
namespace Sys2Proof.Machine

/-- What a byte of Display Memory holds after reset, `DEFAULT[i]`: what an unlisted index reads as (R220). There is no
byte at an index of N or more (R23, R55); the model answers 0 there (log entry 3). -/
def resetByte (c : Config) (i : Nat) : Byte := c.defaultPattern.getD i 0

/-- The entry of index `i`, if one is listed. -/
def Memory.entry (i : Nat) : Memory → Option Byte
  | [] => none
  | (j, b) :: rest => if i = j then some b else Memory.entry i rest

/-- The memory without an entry for `i`. -/
def Memory.drop (i : Nat) : Memory → Memory
  | [] => []
  | (j, b) :: rest => if i = j then Memory.drop i rest else (j, b) :: Memory.drop i rest

/-- The memory with the entry of `i` set to `v`, indices still rising. -/
def Memory.put (i : Nat) (v : Byte) : Memory → Memory
  | [] => [(i, v)]
  | (j, b) :: rest =>
    if i < j then (i, v) :: (j, b) :: rest
    else if i = j then (i, v) :: rest
    else (j, b) :: Memory.put i v rest

/-- `DM[i]` (R12). -/
def Memory.read (c : Config) (i : Nat) (m : Memory) : Byte := (Memory.entry i m).getD (resetByte c i)

/-- `DM[i] <- v` (R12). Writing the reset byte removes the entry, so that equal memories are equal data. No byte exists
at an index of N or more, and nothing is written there (R124; no command forms such an index, R55). -/
def Memory.write (c : Config) (i : Nat) (v : Byte) (m : Memory) : Memory :=
  if i < c.n then
    if v = resetByte c i then Memory.drop i m else Memory.put i v m
  else m

/-- Indices strictly rising. -/
def Memory.rising : Memory → Bool
  | [] => true
  | [_] => true
  | (i, _) :: (j, b) :: rest => decide (i < j) && Memory.rising ((j, b) :: rest)

/-- The canonical form: indices strictly rising and below N, no entry equal to the reset byte. -/
def Memory.wf (c : Config) (m : Memory) : Bool :=
  Memory.rising m && m.all (fun e => decide (e.1 < c.n) && decide (e.2 ≠ resetByte c e.1))

/-- `DM[i]` of the engine. -/
def State.readDm (s : State) (i : Nat) : Byte := Memory.read s.config i s.dm

/-- `DM[i] <- v` on the engine. -/
def State.writeDm (i : Nat) (v : Byte) (s : State) : State := { s with dm := Memory.write s.config i v s.dm }

/-- `MergeByte(i, keep, val)`: the masked read-modify-write (R62). -/
def State.mergeByte (i : Nat) (keep val : Byte) (s : State) : State := s.writeDm i ((s.readDm i &&& keep) ||| val)

/-- `OrByte(i, val)` (R63). -/
def State.orByte (i : Nat) (val : Byte) (s : State) : State := s.writeDm i (s.readDm i ||| val)

/-- `emit(e)`: append an event to the trace (R12, R31). -/
def State.emit (e : Event) (s : State) : State := { s with trace := s.trace ++ [e] }

/-- `SetClk(b)` (R100): emitted on every call, also when the level does not change. -/
def State.setClk (b : Bool) (s : State) : State := State.emit (.setClk b) { s with clk := b }

/-- `SetDat(b)` (R101). -/
def State.setDat (b : Bool) (s : State) : State := State.emit (.setDat b) { s with dat := b }

/-- `WaitUs(n)` (R102): an event, no state. -/
def State.waitUs (us : Nat) (s : State) : State := State.emit (.waitUs us) s

/-- `WaitMs(n)` (R103). -/
def State.waitMs (ms : Nat) (s : State) : State := State.emit (.waitMs ms) s

/-- `LineSetup()` (44_chip_commands.md R194): the latches take the configured levels at the `Setup` event. -/
def State.lineSetup (s : State) : State :=
  { (State.emit .setup s) with clk := s.config.setupClk, dat := s.config.setupDat }

/-- A command that completes: `RESULT <- 0` (R200). -/
def State.complete (s : State) : Host.Outcome State Fault Refusal := .next (s.setResult codeOk)

/-- `raise E()`: the command ends with error `code`. Only RESULT changes: no byte of DM, no latch, no event (R12, R201).
It is the engine's one exceptional path: there is no vector, no saved state and no return (R204, R205). -/
def State.raise (code : BitVec 2) (s : State) : Host.Outcome State Fault Refusal := .next (s.setResult code)

end Sys2Proof.Machine
end

