-- ==== Sys2Proof/Machine/Bus.lean ====
section
/-! DEFINITION. The Bus Protocol Engine (40_bus_protocol.md R104 to R108): start, stop, byte, transaction and transfer,
and the sequencer phases they step through (10_state.md R28). -/
namespace Sys2Proof.Machine

/-- `WaitUs(UNIT_US)`. -/
def State.waitUnit (s : State) : State := s.waitUs s.config.unitUs

/-- `WaitUs(ACK_US)`. -/
def State.waitAck (s : State) : State := s.waitUs s.config.ackUs

/-- `BusStart()` (R104). -/
def State.busStart (s : State) : State :=
  s.setDat true |>.waitUnit |>.setClk true |>.waitUnit |>.setDat false |>.waitUnit |>.setClk false |>.waitUnit

/-- `BusStop()` (R105): the final data fall comes before the clock fall, and no wait follows (R113). -/
def State.busStop (s : State) : State :=
  s.setClk true |>.waitUnit |>.setDat false |>.waitUnit |>.setDat true |>.waitUnit |>.setDat false |>.setClk false

/-- The bit loop of `SendByte` over its last `k` bits, `v` the shift value; no wait inside (R106, R116). -/
def State.sendBits : Nat → Byte → State → State
  | 0, _, s => s
  | k + 1, v, s => State.sendBits k (v <<< 1) (s.setClk false |>.setDat (v.getLsbD 7) |>.setClk true)

/-- The ack slot of `SendByte`: DAT driven low, nothing read (R106, R228). -/
def State.ackSlot (s : State) : State :=
  s.setClk false |>.waitUnit |>.setDat false |>.waitUnit |>.setClk true |>.waitAck |>.setClk false |>.waitUnit

/-- `SendByte(v)` (R106). -/
def State.sendByte (v : Byte) (s : State) : State := (State.sendBits 8 v (s.setClk false)).ackSlot

/-- `for b in p: SendByte(b)` (R107). -/
def State.sendBytes : List Byte → State → State
  | [], s => s
  | b :: p, s => State.sendBytes p (s.sendByte b)

/-- One frame: start, the bytes, stop (R81, R82). -/
def State.sendFrame (p : List Byte) (s : State) : State := (State.sendBytes p s.busStart).busStop

/-- `WriteTransaction(p)` (R107). -/
def State.writeTransaction (p : List Byte) (s : State) : State :=
  s.sendFrame (s.config.deviceAddr :: s.config.regSel :: p)

/-- `DmGet()`: the live buffer in index order (41_display_memory.md R120). -/
def State.dmGet (s : State) : List Byte := (List.range s.config.n).map s.readDm

/-- `Transfer()` (R108). -/
def State.transfer (s : State) : State := s.writeTransaction s.dmGet

/-- The sequencer phases (R28): between commands `idle`, in a frame `start`, then the bytes, then `stop`. -/
inductive Phase where
  | idle
  | start
  | byte (k : Nat)
  | stop
  deriving DecidableEq, Repr

/-- The phases of a frame of `len` bytes, in order: no branch back but the counted loop (R28). -/
def framePhases (len : Nat) : List Phase := .start :: (List.range len).map .byte ++ [.stop]

/-- What the engine does in one phase of a frame that carries `p` (R28). -/
def State.runPhase (p : List Byte) (s : State) : Phase → State
  | .idle => s
  | .start => s.busStart
  | .byte k => s.sendByte (p.getD k 0)
  | .stop => s.busStop

end Sys2Proof.Machine
end

