-- ==== Sys2Proof/Machine/DisplayMemory.lean ====
section
/-! DEFINITION. The whole-buffer operations of Display Memory (41_display_memory.md R121 to R123): the only writes that
ignore the preserve masks (20_memory.md R64). -/
namespace Sys2Proof.Machine

/-- `for i in 0..N-1: DM[i] <- f(i)`, over the first `k` indices. -/
def State.writeBelow (f : Nat → Byte) : Nat → State → State
  | 0, s => s
  | k + 1, s => (State.writeBelow f k s).writeDm k (f k)

/-- `DmClearAll()` (R121). -/
def State.dmClearAll (s : State) : State := s.writeBelow (fun _ => 0x00) s.config.n

/-- `DmFillAll()` (R122). -/
def State.dmFillAll (s : State) : State := s.writeBelow (fun _ => 0xFF) s.config.n

/-- `DmInitDefault()` (R123). -/
def State.dmInitDefault (s : State) : State := s.writeBelow (resetByte s.config) s.config.n

end Sys2Proof.Machine
end

