-- ==== Sys2Proof/Machine/Chip.lean ====
section
/-! DEFINITION. The chip commands (44_chip_commands.md R190 to R193). None of them can fail (R195). -/
namespace Sys2Proof.Machine

/-- The bytes of INIT's frame: the device address if the configuration asks for it, then the four command bytes (30_encoding.md
R82). -/
def initBytes (c : Config) : List Byte :=
  (if c.initAddrPrefix then [c.deviceAddr] else []) ++ c.initCmds.bytes

/-- `INIT` (R190): Display Memory is neither read nor written. -/
def execInit (s : State) : Host.Outcome State Fault Refusal :=
  (s.lineSetup.waitMs s.config.startupMs |>.sendFrame (initBytes s.config)).complete

/-- `CLR` (R191): Display Memory keeps the zeros. -/
def execClr (s : State) : Host.Outcome State Fault Refusal := s.dmClearAll.transfer.complete

/-- `FILL` (R192), the lamp test. -/
def execFill (s : State) : Host.Outcome State Fault Refusal := s.dmFillAll.transfer.complete

/-- `LDEF` (R193). -/
def execLdef (s : State) : Host.Outcome State Fault Refusal := s.dmInitDefault.transfer.complete

end Sys2Proof.Machine
end

