-- ==== Sys2Proof/Machine/Operands.lean ====
section
/-! DEFINITION. The operand forms: the range of each field's value (43_field_encoder.md R150), the decimal decomposition
(42_segment_tables.md R133 to R135), and the segment tables behind their index map (R130 to R132). -/
namespace Sys2Proof.Machine

/-- `RANGE[ft]`, inclusive (R72, R150). -/
def fieldRange : Field → Int × Int
  | .signal => (0, 5)
  | .bell => (0, 1)
  | .hour => (0, 23)
  | .minute => (0, 59)
  | .score => (0, 99)
  | .battery => (0, 4)
  | .temp1 => (-9, 99)
  | .temp2 => (-9, 99)
  | .humidity => (0, 99)
  | .co2 => (0, 999)

/-- `value < lo or value > hi` (R150). -/
def outOfRange (f : Field) (value : Int) : Bool :=
  decide (value < (fieldRange f).1) || decide ((fieldRange f).2 < value)

/-- `Decompose2(v)`: (tens, units) (R134). -/
def decompose2 (v : Nat) : Nat × Nat := (v / 10, v % 10)

/-- `Decompose3(v)`: (hundreds, tens, units) (R135). -/
def decompose3 (v : Nat) : Nat × Nat × Nat := (v / 100, v / 10 % 10, v % 10)

/-- `IDX(d)`: the table index of a decimal digit (R132). -/
def digitIndex (d : Nat) : Nat := d + 1

/-- `IDX_BLANK`: the table index of the blank/dash sentinel (R132). -/
def blankIndex : Nat := 0

/-- `TA(k)` (R130). No index outside 0 to 10 is ever formed (R132). -/
def tableA (c : Config) (k : Nat) : Byte := c.ta.toList.getD k 0

/-- `TB(k)` (R131). -/
def tableB (c : Config) (k : Nat) : Byte := c.tb.toList.getD k 0

/-- The value of a field whose range starts at 0, after its range check, as a natural number (R134, R135). -/
def magnitude (value : Int) : Nat := value.natAbs

end Sys2Proof.Machine
end

