-- ==== Sys2Proof/Machine/Segments.lean ====
section
/-! DEFINITION. The three merges of segment patterns into Display Memory (42_segment_tables.md R136 to R138). -/
namespace Sys2Proof.Machine

/-- `PutA(i, k)`: bits 6:0 take the Table A pattern, bit 7 is kept (R136). -/
def State.putA (i k : Nat) (s : State) : State := s.mergeByte i 0x80 (tableA s.config k)

/-- `OrA(i, k)`: the Table A pattern is ORed in, nothing is cleared (R137). -/
def State.orA (i k : Nat) (s : State) : State := s.orByte i (tableA s.config k)

/-- The bits of byte `b` that `PutB2` writes, from the tens and units patterns (R138). -/
def middleBits (pt pu : Byte) : Byte := ((pt &&& 0x07) <<< 5) ||| (pu >>> 4)

/-- `PutB2(a, b, c, t, u)`: two Table B digits into three bytes, in the order a, b, c (R138). Bit 3 of a pattern reaches
no byte (R139). -/
def State.putB2 (a b c t u : Nat) (s : State) : State :=
  let pt := tableB s.config (digitIndex t)
  let pu := tableB s.config (digitIndex u)
  s.mergeByte a 0xF0 (pt >>> 4) |>.mergeByte b 0x10 (middleBits pt pu) |>.mergeByte c 0x1F ((pu &&& 0x07) <<< 5)

end Sys2Proof.Machine
end

