-- ==== Sys2Proof/Machine/Fields.lean ====
section
/-! DEFINITION. The Field Encoder (43_field_encoder.md): the common sequence of `SETF` (R150), the ten field operations
(R152 to R161) and the meaning of each `SETF` command. -/
namespace Sys2Proof.Machine

/-- `SETF` of field `f` with its field operation `op`: the range check before any read or write, the merge, one transfer
of the whole buffer, `RESULT <- 0` (R150, R162). -/
def setField (f : Field) (op : Int → State → State) (value : Int) (s : State) : Host.Outcome State Fault Refusal :=
  if outOfRange f value then s.raise codeRange else (op value s).transfer.complete

/-- `m` if the level reaches `k`, else no bit. -/
def tier (k level : Nat) (m : Byte) : Byte := if k ≤ level then m else 0

/-- `SetSignal(L)` (R152): every level writes all five indicator bits. -/
def State.setSignal (value : Int) (s : State) : State :=
  let l := s.config.layout
  let level := magnitude value
  s.mergeByte l.sigB1 (~~~(l.sigM1 ||| l.sigM2 ||| l.sigM3))
      (tier 1 level l.sigM1 ||| tier 2 level l.sigM2 ||| tier 3 level l.sigM3)
    |>.mergeByte l.sigB4 (~~~l.sigM4) (tier 4 level l.sigM4)
    |>.mergeByte l.sigB5 (~~~l.sigM5) (tier 5 level l.sigM5)

/-- `SetBell(v)` (R153). -/
def State.setBell (value : Int) (s : State) : State :=
  let l := s.config.layout
  s.mergeByte l.bellB (~~~l.bellM) (if value = 1 then l.bellM else 0)

/-- `SetHour(v)` (R154). -/
def State.setHour (value : Int) (s : State) : State :=
  let l := s.config.layout
  let d := decompose2 (magnitude value)
  s.putB2 l.hourA l.hourB l.hourC d.1 d.2

/-- `SetMinute(v)` (R155). -/
def State.setMinute (value : Int) (s : State) : State :=
  let l := s.config.layout
  let d := decompose2 (magnitude value)
  s.putB2 l.minA l.minB l.minC d.1 d.2

/-- `SetScore(v)` (R156). -/
def State.setScore (value : Int) (s : State) : State :=
  let l := s.config.layout
  let d := decompose2 (magnitude value)
  s.putB2 l.scoreA l.scoreB l.scoreC d.1 d.2

/-- `BATLVL[L]` (R157): levels 0 and 1 clear the nibble. -/
def batteryBars (level : Nat) : Byte :=
  match level with
  | 2 => 0x08
  | 3 => 0x09
  | 4 => 0x0D
  | _ => 0x00

/-- `SetBattery(L)` (R157). -/
def State.setBattery (value : Int) (s : State) : State :=
  let l := s.config.layout
  let level := magnitude value
  s.mergeByte l.batB1 (~~~l.batM1) (tier 1 level l.batM1) |>.mergeByte l.batB2 0xF0 (batteryBars level)

/-- `SetTemp(tb, ub, v)`, shared by the two channels (R158): a negative value shows the sentinel and the digit of its
absolute value. -/
def State.setTemp (tb ub : Nat) (value : Int) (s : State) : State :=
  if value < 0 then
    s.putA tb blankIndex |>.putA ub (digitIndex value.natAbs)
  else
    let d := decompose2 (magnitude value)
    s.putA tb (digitIndex d.1) |>.putA ub (digitIndex d.2)

/-- `SetTemp1(v)` (R158). -/
def State.setTemp1 (value : Int) (s : State) : State := s.setTemp s.config.layout.t1T s.config.layout.t1U value

/-- `SetTemp2(v)` (R159). -/
def State.setTemp2 (value : Int) (s : State) : State := s.setTemp s.config.layout.t2T s.config.layout.t2U value

/-- `SetHumidity(v)` (R160). -/
def State.setHumidity (value : Int) (s : State) : State :=
  let l := s.config.layout
  let d := decompose2 (magnitude value)
  s.putA l.humT (digitIndex d.1) |>.putA l.humU (digitIndex d.2)

/-- `SetCO2(v)` (R161): the hundreds and tens bytes are ORed without clearing. -/
def State.setCo2 (value : Int) (s : State) : State :=
  let l := s.config.layout
  let d := decompose3 (magnitude value)
  s.orA l.co2H (digitIndex d.1) |>.orA l.co2T (digitIndex d.2.1) |>.putA l.co2U (digitIndex d.2.2)

/-- `SETF SIGNAL` (R150, R152). -/
def execSetfSignal (value : Int) (s : State) : Host.Outcome State Fault Refusal :=
  setField .signal State.setSignal value s

/-- `SETF BELL` (R150, R153). -/
def execSetfBell (value : Int) (s : State) : Host.Outcome State Fault Refusal := setField .bell State.setBell value s

/-- `SETF HOUR` (R150, R154). -/
def execSetfHour (value : Int) (s : State) : Host.Outcome State Fault Refusal := setField .hour State.setHour value s

/-- `SETF MINUTE` (R150, R155). -/
def execSetfMinute (value : Int) (s : State) : Host.Outcome State Fault Refusal :=
  setField .minute State.setMinute value s

/-- `SETF SCORE` (R150, R156). -/
def execSetfScore (value : Int) (s : State) : Host.Outcome State Fault Refusal := setField .score State.setScore value s

/-- `SETF BATTERY` (R150, R157). -/
def execSetfBattery (value : Int) (s : State) : Host.Outcome State Fault Refusal :=
  setField .battery State.setBattery value s

/-- `SETF TEMP1` (R150, R158). -/
def execSetfTemp1 (value : Int) (s : State) : Host.Outcome State Fault Refusal := setField .temp1 State.setTemp1 value s

/-- `SETF TEMP2` (R150, R159). -/
def execSetfTemp2 (value : Int) (s : State) : Host.Outcome State Fault Refusal := setField .temp2 State.setTemp2 value s

/-- `SETF HUMIDITY` (R150, R160). -/
def execSetfHumidity (value : Int) (s : State) : Host.Outcome State Fault Refusal :=
  setField .humidity State.setHumidity value s

/-- `SETF CO2` (R150, R161). -/
def execSetfCo2 (value : Int) (s : State) : Host.Outcome State Fault Refusal := setField .co2 State.setCo2 value s

end Sys2Proof.Machine
end

