-- ==== Sys2Proof/Machine/UnknownFields.lean ====
section
/-! DEFINITION. `SETF` with a field type 0xA to 0xF: the unknown field types (43_field_encoder.md R151). Each sets
RESULT.CODE to 2 and does nothing else; the value is not examined (60_exceptions.md R202). -/
namespace Sys2Proof.Machine

/-- `SETF #10` (R151). -/
def execSetf10 (_value : Int) (s : State) : Host.Outcome State Fault Refusal := s.raise codeUnknown

/-- `SETF #11` (R151). -/
def execSetf11 (_value : Int) (s : State) : Host.Outcome State Fault Refusal := s.raise codeUnknown

/-- `SETF #12` (R151). -/
def execSetf12 (_value : Int) (s : State) : Host.Outcome State Fault Refusal := s.raise codeUnknown

/-- `SETF #13` (R151). -/
def execSetf13 (_value : Int) (s : State) : Host.Outcome State Fault Refusal := s.raise codeUnknown

/-- `SETF #14` (R151). -/
def execSetf14 (_value : Int) (s : State) : Host.Outcome State Fault Refusal := s.raise codeUnknown

/-- `SETF #15` (R151). -/
def execSetf15 (_value : Int) (s : State) : Host.Outcome State Fault Refusal := s.raise codeUnknown

end Sys2Proof.Machine
end

