-- ==== Sys2Proof/Machine/Dispatch.lean ====
section
/-! DEFINITION. One arm per command: which meaning runs it. -/
namespace Sys2Proof.Machine

def exec (i : Instr) (s : State) : Host.Outcome State Fault Refusal :=
  match i with
  | .init => Sys2Proof.Machine.execInit s
  | .clr => Sys2Proof.Machine.execClr s
  | .fill => Sys2Proof.Machine.execFill s
  | .ldef => Sys2Proof.Machine.execLdef s
  | .setfSignal value => Sys2Proof.Machine.execSetfSignal value s
  | .setfBell value => Sys2Proof.Machine.execSetfBell value s
  | .setfHour value => Sys2Proof.Machine.execSetfHour value s
  | .setfMinute value => Sys2Proof.Machine.execSetfMinute value s
  | .setfScore value => Sys2Proof.Machine.execSetfScore value s
  | .setfBattery value => Sys2Proof.Machine.execSetfBattery value s
  | .setfTemp1 value => Sys2Proof.Machine.execSetfTemp1 value s
  | .setfTemp2 value => Sys2Proof.Machine.execSetfTemp2 value s
  | .setfHumidity value => Sys2Proof.Machine.execSetfHumidity value s
  | .setfCo2 value => Sys2Proof.Machine.execSetfCo2 value s
  | .setf10 value => Sys2Proof.Machine.execSetf10 value s
  | .setf11 value => Sys2Proof.Machine.execSetf11 value s
  | .setf12 value => Sys2Proof.Machine.execSetf12 value s
  | .setf13 value => Sys2Proof.Machine.execSetf13 value s
  | .setf14 value => Sys2Proof.Machine.execSetf14 value s
  | .setf15 value => Sys2Proof.Machine.execSetf15 value s

end Sys2Proof.Machine
end

