-- ==== Sys2Proof/Decode.lean ====
section
/-! DEFINITION. The command word (30_encoding.md part 1): its fields, the decoder (R77), the encoder and assembler (R79),
and the opcode map (R84). The decoder is total over all words; a word that encodes no command is rejected by the name of
the test it fails. -/
namespace Sys2Proof

/-- Bits 31:28, the operation (R70). -/
def cmdOp (w : Word) : BitVec 4 := w.extractLsb' 28 4

/-- Bits 27:24, the field type (R70). -/
def cmdFt (w : Word) : BitVec 4 := w.extractLsb' 24 4

/-- Bits 23:16, reserved (R70, R75). -/
def cmdRsv (w : Word) : BitVec 8 := w.extractLsb' 16 8

/-- Bits 15:0, the field value (R70). -/
def cmdVal (w : Word) : BitVec 16 := w.extractLsb' 0 16

/-- Bits 27:0, all operand fields together (R74). -/
def cmdOperands (w : Word) : BitVec 28 := w.extractLsb' 0 28

/-- `sext_16`: two's complement of a 16-bit value (R11, R73). -/
def sext16 (v : BitVec 16) : Int := if v.getLsbD 15 then (v.toNat : Int) - 65536 else (v.toNat : Int)

/-- Why a word encodes no command (R76). -/
inductive IllegalWord where
  /-- `OP` is 0x0 or 0x6 to 0xF. -/
  | undefinedOp (op : BitVec 4)
  /-- `OP` is 0x1 to 0x4 and bits 27:0 are not all 0 (R74). -/
  | operandBitsSet (op : BitVec 4)
  /-- `OP` is 0x5 and `RSV` is not 0 (R75). -/
  | reservedBitsSet (rsv : BitVec 8)
  deriving DecidableEq, Repr

/-- The `SETF` command of field type `ft` (R72; 0xA to 0xF are the unknown field types of R151). -/
def setfOf (ft : BitVec 4) (value : Int) : Instr :=
  match ft.toNat with
  | 0 => .setfSignal value
  | 1 => .setfBell value
  | 2 => .setfHour value
  | 3 => .setfMinute value
  | 4 => .setfScore value
  | 5 => .setfBattery value
  | 6 => .setfTemp1 value
  | 7 => .setfTemp2 value
  | 8 => .setfHumidity value
  | 9 => .setfCo2 value
  | 10 => .setf10 value
  | 11 => .setf11 value
  | 12 => .setf12 value
  | 13 => .setf13 value
  | 14 => .setf14 value
  | _ => .setf15 value

/-- A command without operands is legal only when bits 27:0 are all 0 (R74). -/
def noOperands (w : Word) (i : Instr) : Except IllegalWord Instr :=
  if cmdOperands w = 0#28 then .ok i else .error (.operandBitsSet (cmdOp w))

/-- The decoder (R77). The tests stand in the rule's order, so that an illegal word is reported before an unknown field
type, and that before a range error (R202). -/
def decode (w : Word) : Except IllegalWord Instr :=
  if cmdOp w = 1#4 then noOperands w .init
  else if cmdOp w = 2#4 then noOperands w .clr
  else if cmdOp w = 3#4 then noOperands w .fill
  else if cmdOp w = 4#4 then noOperands w .ldef
  else if cmdOp w = 5#4 then
    if cmdRsv w = 0#8 then .ok (setfOf (cmdFt w) (sext16 (cmdVal w))) else .error (.reservedBitsSet (cmdRsv w))
  else .error (.undefinedOp (cmdOp w))

/-- A command word from its four fields (R70). -/
def wordOfFields (op ft : BitVec 4) (rsv : BitVec 8) (val : BitVec 16) : Word := op ++ ft ++ rsv ++ val

/-- The word of `INIT`, `CLR`, `FILL` or `LDEF`: operand fields all 0 (R74). -/
def chipWord (op : BitVec 4) : Word := wordOfFields op 0#4 0#8 0#16

/-- `value & 0xFFFF` (R79). -/
def valBits (value : Int) : BitVec 16 := BitVec.ofInt 16 value

/-- The word of `SETF`: `0x5 << 28 | FT << 24 | (value & 0xFFFF)` (R79). -/
def setfWord (ft : BitVec 4) (value : Int) : Word := wordOfFields 5#4 ft 0#8 (valBits value)

/-- The encoder: the word of a command (R71, R72, R79). -/
def encode : Instr → Word
  | .init => chipWord 1
  | .clr => chipWord 2
  | .fill => chipWord 3
  | .ldef => chipWord 4
  | .setfSignal v => setfWord 0x0 v
  | .setfBell v => setfWord 0x1 v
  | .setfHour v => setfWord 0x2 v
  | .setfMinute v => setfWord 0x3 v
  | .setfScore v => setfWord 0x4 v
  | .setfBattery v => setfWord 0x5 v
  | .setfTemp1 v => setfWord 0x6 v
  | .setfTemp2 v => setfWord 0x7 v
  | .setfHumidity v => setfWord 0x8 v
  | .setfCo2 v => setfWord 0x9 v
  | .setf10 v => setfWord 0xA v
  | .setf11 v => setfWord 0xB v
  | .setf12 v => setfWord 0xC v
  | .setf13 v => setfWord 0xD v
  | .setf14 v => setfWord 0xE v
  | .setf15 v => setfWord 0xF v

/-- The assembler: a command whose value does not lie in -32768 to 32767 is rejected, any other assembles to its word
(R79). -/
def assemble (i : Instr) : Option Word := if i.wellFormed then some (encode i) else none

/-- One line of assembly: `SETF <field>, <value>` (R79). -/
def setfText (field : String) (value : Int) : String := "SETF " ++ field ++ ", " ++ toString value

/-- A command in the spec's assembler syntax (R79). -/
def Instr.text : Instr → String
  | .init => "INIT"
  | .clr => "CLR"
  | .fill => "FILL"
  | .ldef => "LDEF"
  | .setfSignal v => setfText "SIGNAL" v
  | .setfBell v => setfText "BELL" v
  | .setfHour v => setfText "HOUR" v
  | .setfMinute v => setfText "MINUTE" v
  | .setfScore v => setfText "SCORE" v
  | .setfBattery v => setfText "BATTERY" v
  | .setfTemp1 v => setfText "TEMP1" v
  | .setfTemp2 v => setfText "TEMP2" v
  | .setfHumidity v => setfText "HUMIDITY" v
  | .setfCo2 v => setfText "CO2" v
  | .setf10 v => setfText "#10" v
  | .setf11 v => setfText "#11" v
  | .setf12 v => setfText "#12" v
  | .setf13 v => setfText "#13" v
  | .setf14 v => setfText "#14" v
  | .setf15 v => setfText "#15" v

/-- A row of the opcode map (R84). -/
structure OpcodeRow where
  mnemonic : String
  pattern : Word
  mask : Word
  deriving DecidableEq, Repr

/-- A word belongs to a row when it agrees with the row's pattern under the row's mask (R84). -/
def OpcodeRow.covers (r : OpcodeRow) (w : Word) : Bool := w &&& r.mask == r.pattern

/-- The rows of the commands without operands (R84). -/
def chipRows : List OpcodeRow :=
  [⟨"INIT", 0x10000000, 0xFFFFFFFF⟩, ⟨"CLR", 0x20000000, 0xFFFFFFFF⟩, ⟨"FILL", 0x30000000, 0xFFFFFFFF⟩,
   ⟨"LDEF", 0x40000000, 0xFFFFFFFF⟩]

/-- The rows of `SETF` with a known field type (R84). -/
def fieldRows : List OpcodeRow :=
  [⟨"SETF_SIGNAL", 0x50000000, 0xFFFF0000⟩, ⟨"SETF_BELL", 0x51000000, 0xFFFF0000⟩,
   ⟨"SETF_HOUR", 0x52000000, 0xFFFF0000⟩, ⟨"SETF_MINUTE", 0x53000000, 0xFFFF0000⟩,
   ⟨"SETF_SCORE", 0x54000000, 0xFFFF0000⟩, ⟨"SETF_BATTERY", 0x55000000, 0xFFFF0000⟩,
   ⟨"SETF_TEMP1", 0x56000000, 0xFFFF0000⟩, ⟨"SETF_TEMP2", 0x57000000, 0xFFFF0000⟩,
   ⟨"SETF_HUMIDITY", 0x58000000, 0xFFFF0000⟩, ⟨"SETF_CO2", 0x59000000, 0xFFFF0000⟩]

/-- The rows of `SETF` with an unknown field type (R84). -/
def unknownRows : List OpcodeRow :=
  [⟨"SETF__10", 0x5A000000, 0xFFFF0000⟩, ⟨"SETF__11", 0x5B000000, 0xFFFF0000⟩,
   ⟨"SETF__12", 0x5C000000, 0xFFFF0000⟩, ⟨"SETF__13", 0x5D000000, 0xFFFF0000⟩,
   ⟨"SETF__14", 0x5E000000, 0xFFFF0000⟩, ⟨"SETF__15", 0x5F000000, 0xFFFF0000⟩]

/-- The opcode map (R84, spec/opcode_table.json). -/
def opcodeMap : List OpcodeRow := chipRows ++ fieldRows ++ unknownRows

/-- The low `nbits` bits of `w` as a command word; the bits above are 0. -/
def tableWord (nbits w : Nat) : Word := BitVec.ofNat 32 (w % 2 ^ nbits)

/-- What the decoder reads from a word numbered as spec/opcode_table.json numbers it. Every command is one 32-bit word
(R78), so there is nothing to lay out beyond the word itself. -/
def decodeTableWord (nbits w : Nat) : Option Instr := (decode (tableWord nbits w)).toOption

end Sys2Proof
end

