-- ==== Sys2Proof/Machine/HostPort.lean ====
section
/-! DEFINITION. The host port (10_state.md R24, R25; 20_memory.md R52 to R54; 60_exceptions.md R212): the two host
registers, power-on reset (70_reset_and_hazards.md R220), and how a command word becomes a run of a command. -/
namespace Sys2Proof.Machine

/-- The byte offset of `CMD` (R54). -/
def cmdOffset : Nat := 0

/-- The byte offset of `RESULT` (R54). -/
def resultOffset : Nat := 4

/-- The one access width, in bits (R52). -/
def accessWidth : Nat := 32

/-- The host gets `r` back (R212). -/
def State.reply (r : HostReply) (s : State) : State := { s with replies := s.replies ++ [r] }

/-- A host write completes when its command has run to completion (R25). -/
def completeWrite (o : Host.Outcome State Fault Refusal) : Host.Outcome State Fault Refusal :=
  match o with
  | .next t => .next (t.reply .written)
  | .fault f => .fault f
  | .refused r => .refused r

/-- A power-on reset between commands: DM is DEFAULT, RESULT is 0, the latches hold the levels drawn, the trace is empty
(R220). DESIGN CHOICE: what the host still means to send, and what it has received, stays as it was (log entries 5 and
7). -/
def State.powerOn (clk dat : Bool) (s : State) : State :=
  { State.afterReset s.cfg clk dat with inbox := s.inbox, replies := s.replies }

/-- A write of `w` to `CMD`: the word is decoded and its command runs; a word that encodes no command is
ILLEGAL_COMMAND (R25, R76, R77). -/
def runWord (run : Instr → State → Host.Outcome State Fault Refusal) (w : Word) (s : State) :
    Host.Outcome State Fault Refusal :=
  match decode w with
  | .ok i => completeWrite (run i s)
  | .error _ => completeWrite (s.raise codeIllegal)

/-- A host write: `CMD` runs a command, `RESULT` ignores the write, anything else is refused (R52, R54). DESIGN CHOICE:
a write of `RESULT` completes with the same reply as a write of `CMD`, where R212 leaves the cell empty (log entry 19). -/
def serveWrite (run : Instr → State → Host.Outcome State Fault Refusal) (offset width : Nat) (data : Word)
    (s : State) : Host.Outcome State Fault Refusal :=
  if width = accessWidth then
    if offset = cmdOffset then runWord run data s
    else if offset = resultOffset then completeWrite (.next s)
    else .refused (.hostAccess offset width)
  else .refused (.hostAccess offset width)

/-- A host read: `CMD` reads as 0, `RESULT` as the last result, anything else is refused; a read has no side effect on
the engine (R24, R25, R52 to R54). -/
def serveRead (offset width : Nat) (s : State) : Host.Outcome State Fault Refusal :=
  if width = accessWidth then
    if offset = cmdOffset then .next (s.reply (.value 0))
    else if offset = resultOffset then .next (s.reply (.value s.readResult))
    else .refused (.hostAccess offset width)
  else .refused (.hostAccess offset width)

/-- One host action, served to completion (R57, R212). -/
def serve (run : Instr → State → Host.Outcome State Fault Refusal) (a : HostAction) (s : State) :
    Host.Outcome State Fault Refusal :=
  match a with
  | .write offset width data => serveWrite run offset width data s
  | .read offset width => serveRead offset width s
  | .powerOn clk dat => .next (s.powerOn clk dat)

/-- The oldest host action is taken from the inbox and served. With none pending the engine waits in IDLE and nothing
changes (R28, R221). -/
def serveNext (run : Instr → State → Host.Outcome State Fault Refusal) (s : State) :
    Host.Outcome State Fault Refusal :=
  match s.inbox with
  | [] => .next s
  | a :: rest => serve run a { s with inbox := rest }

/-- The host's next action is a write of `w` to `CMD`. -/
def State.withCommand (w : Word) (s : State) : State :=
  { s with inbox := .write cmdOffset accessWidth w :: s.inbox }

end Sys2Proof.Machine
end

