-- ==== Sys2Proof/Machine/Step.lean ====
section
/-! DEFINITION. One step of the engine: one host action, served to completion (00_scope.md R10). The engine fetches
nothing (10_state.md R28): its next command is the host's next write to `CMD`. -/
namespace Sys2Proof.Machine

/-- One step. -/
def step (s : State) : Host.Outcome State Fault Refusal := serveNext exec s

/-- `s` with the host's next action a write of this command word (log entry 5). -/
def State.withFetchWord (s : State) (nbits w : Nat) : State := s.withCommand (tableWord nbits w)

end Sys2Proof.Machine
end

