-- ==== Sys2Proof/Machine/Wire.lean ====
section
/-! DEFINITION. The wire encoding (30_encoding.md part 2) as lists of line events: what a start, a stop, a byte cell and
a frame look like, written from R80 to R82 and R104 to R106 and not from the operations that emit them; the trace
shorthand (00_scope.md R12); the waits of a trace (40_bus_protocol.md R109). -/
namespace Sys2Proof.Machine

/-- The events of a start (R104). -/
def startCell (c : Config) : List Event :=
  [.setDat true, .waitUs c.unitUs, .setClk true, .waitUs c.unitUs,
   .setDat false, .waitUs c.unitUs, .setClk false, .waitUs c.unitUs]

/-- The events of a stop (R105). -/
def stopCell (c : Config) : List Event :=
  [.setClk true, .waitUs c.unitUs, .setDat false, .waitUs c.unitUs,
   .setDat true, .waitUs c.unitUs, .setDat false, .setClk false]

/-- Bits 7 down to 0 of a byte (R51, R80). -/
def bitsMsbFirst (v : Byte) : List Bool := (List.range 8).map fun k => v.getLsbD (7 - k)

/-- One bit on the wire: DAT is set while CLK is low, and CLK then rises (R80, R106). -/
def bitCell (b : Bool) : List Event := [.setClk false, .setDat b, .setClk true]

/-- The ack slot, the ninth clock pulse: DAT is driven low, CLK rises, a wait of ACK_US, CLK falls (R80, R106). -/
def ackCell (c : Config) : List Event :=
  [.setClk false, .waitUs c.unitUs, .setDat false, .waitUs c.unitUs,
   .setClk true, .waitUs c.ackUs, .setClk false, .waitUs c.unitUs]

/-- A byte cell: clock forced low, eight bits, the ack slot (R80, R106). -/
def byteCell (c : Config) (v : Byte) : List Event :=
  .setClk false :: ((bitsMsbFirst v).flatMap bitCell ++ ackCell c)

/-- A frame that carries the bytes `p` (R81, R82). -/
def frameEvents (c : Config) (p : List Byte) : List Event :=
  startCell c ++ (p.flatMap (byteCell c) ++ stopCell c)

/-- The data frame of a transfer (R81). -/
def dataFrame (c : Config) (dm : List Byte) : List Event := frameEvents c (c.deviceAddr :: c.regSel :: dm)

/-- What INIT emits: the line setup, the startup delay, the initialisation frame (R82, R190). -/
def initEvents (c : Config) : List Event := .setup :: .waitMs c.startupMs :: frameEvents c (initBytes c)

/-- One event in the spec's shorthand (R12). -/
def Event.shorthand : Event → String
  | .setClk b => if b then "C1" else "C0"
  | .setDat b => if b then "D1" else "D0"
  | .waitUs us => "W" ++ toString us
  | .waitMs ms => "M" ++ toString ms
  | .setup => "S"

/-- The microseconds of an event's wait (R109). -/
def Event.us : Event → Nat
  | .waitUs us => us
  | .setClk _ | .setDat _ | .waitMs _ | .setup => 0

/-- The microseconds the waits of a trace total (R109, R231). -/
def waitTotal (es : List Event) : Nat := (es.map Event.us).sum

end Sys2Proof.Machine
end

