-- ==== Sys2Proof/Machine/Wave.lean ====
section
/-! DEFINITION. What the receiver sees (10_state.md R31, 40_bus_protocol.md R110): the levels of the two lines, replayed
from a trace, and the edges and conditions on them. The receiver is an observer: nothing here feeds back into the engine
(R9, R111). -/
namespace Sys2Proof.Machine

/-- The levels of the two lines. -/
structure Lines where
  clk : Bool
  dat : Bool
  deriving DecidableEq, Repr

/-- The lines as the latches drive them. -/
def State.lines (s : State) : Lines := ⟨s.clk, s.dat⟩

/-- The levels after an event (R31); at `Setup` the configured levels apply (44_chip_commands.md R194). -/
def Lines.after (c : Config) (l : Lines) : Event → Lines
  | .setClk b => { l with clk := b }
  | .setDat b => { l with dat := b }
  | .waitUs _ => l
  | .waitMs _ => l
  | .setup => ⟨c.setupClk, c.setupDat⟩

/-- The levels after a trace (R31). -/
def replay (c : Config) (l : Lines) (es : List Event) : Lines := es.foldl (Lines.after c) l

/-- The waveform: the levels after each event that changes one (R31). -/
def waveform (c : Config) : Lines → List Event → List Lines
  | _, [] => []
  | l, e :: es =>
    if l.after c e = l then waveform c l es else l.after c e :: waveform c (l.after c e) es

/-- What a receiver can tell from a change of levels: a start or a stop condition (R14), a rise of the clock with the
level of data at it, a fall of the clock (R110). -/
inductive Sight where
  | start
  | stop
  | rise (dat : Bool)
  | fall
  deriving DecidableEq, Repr

/-- The sight of one change of levels. A start is a fall of DAT while CLK is high, a stop a rise of DAT while CLK is high
(R14). -/
def Lines.sight (before after : Lines) : List Sight :=
  match before.clk, after.clk with
  | false, true => [.rise after.dat]
  | true, false => [.fall]
  | false, false => []
  | true, true =>
    match before.dat, after.dat with
    | true, false => [.start]
    | false, true => [.stop]
    | false, false => []
    | true, true => []

/-- What a receiver sees of a trace, in order (R110). -/
def observe (c : Config) : Lines → List Event → List Sight
  | _, [] => []
  | l, e :: es => l.sight (l.after c e) ++ observe c (l.after c e) es

/-- The sights of one byte cell: eight clock pulses with the bits 7 to 0, and a ninth with DAT low (R110). -/
def byteSights (v : Byte) : List Sight :=
  (bitsMsbFirst v).flatMap (fun b => [.rise b, .fall]) ++ [.rise false, .fall]

/-- The sights of a frame entered with both lines low: the clock rise and the start condition of BusStart; the byte
cells; a clock rise with DAT low, the stop condition, and the start condition right after it (R110, R113). -/
def frameSights (p : List Byte) : List Sight :=
  [.rise true, .start, .fall] ++ (p.flatMap byteSights ++ [.rise false, .stop, .start, .fall])

end Sys2Proof.Machine
end

