-- ==== Sys2Proof/Safety.lean ====
section
/-! DEFINITION. The words the claims are made of: the invariant of the engine's data, the accesses the host may make,
lines at rest, one transfer of the whole buffer, and which display bits a command writes and keeps. -/
namespace Sys2Proof.Machine

/-- The invariant: Display Memory is in its canonical form, so that it lists only indices below N (10_state.md R23, R124),
and bits 31:2 of RESULT are 0 (R24). -/
def State.Inv (s : State) : Prop := Memory.wf s.config s.dm = true ∧ s.result.extractLsb' 2 30 = 0

/-- An access the host may make: 32 bits wide at 0x0 or 0x4 (20_memory.md R52, R54), or a power-on reset. -/
def HostAction.allowed : HostAction → Bool
  | .write offset width _ => decide (width = 32) && (decide (offset = 0) || decide (offset = 4))
  | .read offset width => decide (width = 32) && (decide (offset = 0) || decide (offset = 4))
  | .powerOn _ _ => true

/-- Both lines rest low, as every frame leaves them (40_bus_protocol.md R114). -/
def State.AtRest (s : State) : Prop := s.clk = false ∧ s.dat = false

/-- The configuration and the host port are the same: no command changes them (R20, R25, R83). -/
def State.SamePort (s t : State) : Prop := t.cfg = s.cfg ∧ t.inbox = s.inbox ∧ t.replies = s.replies

/-- `t` is `s` after a command that ended with one data frame of the whole buffer: the frame carries the bytes of `t` in
index order, the lines rest, RESULT is 0, and nothing else changed but Display Memory (30_encoding.md R81,
43_field_encoder.md R150, R162). -/
def State.SentWhole (s t : State) : Prop :=
  t.trace = s.trace ++ dataFrame s.config ((List.range s.config.n).map t.readDm)
    ∧ t.AtRest ∧ t.result = 0 ∧ s.SamePort t

/-- Every byte of Display Memory but those at `written` reads as before. -/
def State.KeepsBytes (s t : State) (written : List Nat) : Prop := ∀ i, i ∉ written → t.readDm i = s.readDm i

/-- `t` is `s` after one `MergeByte(i, keep, val)` for each `(i, keep, val)` of `calls`, in order, and each of those calls has
`val & keep = 0` (20_memory.md R62). -/
def State.MergesDisjointly (s t : State) (calls : List (Nat × Byte × Byte)) : Prop :=
  t = calls.foldl (fun u call => u.mergeByte call.1 call.2.1 call.2.2) s ∧ ∀ call ∈ calls, call.2.2 &&& call.2.1 = 0

/-- The bits of every byte outside the footprint of `f` are the same (43_field_encoder.md R164). -/
def State.KeepsOutside (f : Field) (s t : State) : Prop :=
  ∀ i, t.readDm i &&& ~~~(s.config.layout.footprintAt f i) = s.readDm i &&& ~~~(s.config.layout.footprintAt f i)

/-- Byte `i` shows entry `k` of Table A in bits 6:0 and keeps bit 7 (42_segment_tables.md R136). -/
def State.ShowsA (s t : State) (i k : Nat) : Prop :=
  (t.readDm i).extractLsb' 0 7 = (tableA s.config k).extractLsb' 0 7
    ∧ (t.readDm i).extractLsb' 7 1 = (s.readDm i).extractLsb' 7 1

/-- Bytes `a`, `b`, `c` show the digits `d` (tens) and `u` (units) of Table B, bit by bit as the table of 42_segment_tables.md
R138 gives them. -/
def State.ShowsB2 (s t : State) (a b c d u : Nat) : Prop :=
  (t.readDm a).extractLsb' 0 4 = (tableB s.config (d + 1)).extractLsb' 4 4
    ∧ (t.readDm a).extractLsb' 4 4 = (s.readDm a).extractLsb' 4 4
    ∧ (t.readDm b).extractLsb' 5 3 = (tableB s.config (d + 1)).extractLsb' 0 3
    ∧ (t.readDm b).extractLsb' 4 1 = (s.readDm b).extractLsb' 4 1
    ∧ (t.readDm b).extractLsb' 0 4 = (tableB s.config (u + 1)).extractLsb' 4 4
    ∧ (t.readDm c).extractLsb' 5 3 = (tableB s.config (u + 1)).extractLsb' 0 3
    ∧ (t.readDm c).extractLsb' 0 5 = (s.readDm c).extractLsb' 0 5

/-- The bits `m` of byte `i` are all set if `on`, else all clear. -/
def State.MaskIs (t : State) (i : Nat) (m : Byte) (on : Prop) : Prop :=
  (on → t.readDm i &&& m = m) ∧ (¬on → t.readDm i &&& m = 0)

/-- The `SETF` command of a field. -/
def setfCommand (f : Field) (value : Int) : Instr :=
  match f with
  | .signal => .setfSignal value
  | .bell => .setfBell value
  | .hour => .setfHour value
  | .minute => .setfMinute value
  | .score => .setfScore value
  | .battery => .setfBattery value
  | .temp1 => .setfTemp1 value
  | .temp2 => .setfTemp2 value
  | .humidity => .setfHumidity value
  | .co2 => .setfCo2 value

/-- The bits FILL leaves set: bits 6:0 of the CO2 hundreds and tens bytes, and every bit outside all footprints, bit 7 of
those two bytes among them where the layout reserves it (70_reset_and_hazards.md R229). -/
def State.Lit (s : State) : Prop :=
  s.readDm s.config.layout.co2H &&& 0x7F = 0x7F ∧ s.readDm s.config.layout.co2T &&& 0x7F = 0x7F
    ∧ ∀ i < s.config.n, ∀ k < 8, (∀ g, (s.config.layout.footprintAt g i).getLsbD k = false) →
        (s.readDm i).getLsbD k = true

/-- The values a field admits, as the table of 30_encoding.md R72 gives them. -/
def fieldAdmits (f : Field) (value : Int) : Prop :=
  match f with
  | .signal => 0 ≤ value ∧ value ≤ 5
  | .bell => 0 ≤ value ∧ value ≤ 1
  | .hour => 0 ≤ value ∧ value ≤ 23
  | .minute => 0 ≤ value ∧ value ≤ 59
  | .score => 0 ≤ value ∧ value ≤ 99
  | .battery => 0 ≤ value ∧ value ≤ 4
  | .temp1 => -9 ≤ value ∧ value ≤ 99
  | .temp2 => -9 ≤ value ∧ value ≤ 99
  | .humidity => 0 ≤ value ∧ value ≤ 99
  | .co2 => 0 ≤ value ∧ value ≤ 999

/-- A word is an illegal command: the three conditions of 30_encoding.md R76, on the word's own bits. -/
def illegalWord (w : Word) : Prop :=
  (w >>> 28 = 0#32 ∨ 6 ≤ (w >>> 28).toNat)
    ∨ ((1 ≤ (w >>> 28).toNat ∧ (w >>> 28).toNat ≤ 4) ∧ w &&& 0x0FFFFFFF#32 ≠ 0#32)
    ∨ (w >>> 28 = 5#32 ∧ w &&& 0x00FF0000#32 ≠ 0#32)

end Sys2Proof.Machine
end

