-- ==== Sys2Proof/Certificates/Slice0/Obligations.lean ====
section
/-! DEFINITION. The statements for the provers, one per claim; each docstring names the rule of spec/ it comes from. -/
open Sys2Proof Sys2Proof.Machine

/-- R70 to R73, R77, R79: decoding the word of a well-formed command gives the command back, every operand at every value
a word can spell. -/
def Obligations.DecodeOfEncode : Prop := ∀ i : Instr, i.wellFormed = true → decode (encode i) = .ok i

/-- R70 to R77: a word that decodes is the word of its command, and the command is well formed, so that no bit of a legal
word is dropped. -/
def Obligations.EncodeOfDecode : Prop :=
  ∀ (w : Word) (i : Instr), decode w = .ok i → encode i = w ∧ i.wellFormed = true

/-- R76: which words are illegal, exactly; that such a word sets RESULT to 3 and changes nothing else; and that a `SETF`
word with RSV 0 and FT 0xA to 0xF is not illegal but an unknown field. -/
def Obligations.IllegalWordsExactly : Prop :=
  (∀ w : Word, (∃ e, decode w = .error e) ↔ illegalWord w)
    ∧ (∀ (w : Word) (s : State), illegalWord w →
        step (s.withCommand w) = .next { s with result := 3, replies := s.replies ++ [.written] })
    ∧ (∀ (w : Word) (s : State), w >>> 28 = 5#32 → w &&& 0x00FF0000#32 = 0#32 → 10 ≤ (cmdFt w).toNat →
        step (s.withCommand w) = .next { s with result := 2, replies := s.replies ++ [.written] })

/-- R84: a word decodes to a command of a row exactly when the row's pattern and mask cover it; every other word is
illegal. -/
def Obligations.OpcodeMapIsDecoder : Prop :=
  (∀ (w : Word) (i : Instr), decode w = .ok i → ∃ r ∈ opcodeMap, r.covers w = true ∧ r.mnemonic = i.mnemonic)
    ∧ (∀ (w : Word), ∀ r ∈ opcodeMap, r.covers w = true → ∃ i, decode w = .ok i ∧ i.mnemonic = r.mnemonic)
    ∧ (∀ w : Word, (∀ r ∈ opcodeMap, r.covers w = false) → illegalWord w)

/-- R79, R84: the spec's own words decode to the commands they stand for. -/
def Obligations.SpecWordsDecode : Prop :=
  decode 0x10000000 = .ok .init ∧ decode 0x40000000 = .ok .ldef ∧ decode 0x5200000C = .ok (.setfHour 12)
    ∧ decode 0x5600FFF7 = .ok (.setfTemp1 (-9)) ∧ decode 0x590003E7 = .ok (.setfCo2 999)
    ∧ decode 0x5F00FFFF = .ok (.setf15 (-1)) ∧ decode 0x5FFFFFFF = .error (.reservedBitsSet 0xFF)

/-- R79: `SETF <field>, <value>` assembles to `0x5 << 28 | FT << 24 | (value & 0xFFFF)`, and a value outside -32768 to
32767 is rejected. -/
def Obligations.AssemblerWord : Prop :=
  ∀ (f : Field) (v : Int),
    (-32768 ≤ v ∧ v ≤ 32767 → assemble (setfCommand f v) =
      some ((0x5#32 <<< 28) ||| (BitVec.ofNat 32 (Field.all.idxOf f) <<< 24) ||| (BitVec.ofInt 32 v &&& 0xFFFF#32)))
    ∧ (v < -32768 ∨ 32767 < v → assemble (setfCommand f v) = none)

/-- R25, R77: when the host's next action is a write of `w` to `CMD` and `w` decodes to `i`, exec of `i` on the state with
that action taken answers a next state, and the step is that state with the write's completion reported to the host. -/
def Obligations.StepRunsDecodedCommand : Prop :=
  ∀ (s : State) (rest : List HostAction) (w : Word) (i : Instr), s.inbox = .write 0 32 w :: rest → decode w = .ok i →
    ∃ t, exec i { s with inbox := rest } = .next t ∧ step s = .next { t with replies := t.replies ++ [.written] }

/-- R28, R221: with no host action pending the engine waits and nothing changes, for any number of steps; after reset none
is pending. -/
def Obligations.EngineWaitsForTheHost : Prop :=
  (∀ (s : State) (k : Nat), s.inbox = [] → Sys2Proof.core.run k s = .next s) ∧ State.reset.inbox = []

/-- R52: a host access is refused exactly when it is not a 32-bit access at 0x0 or 0x4; every other one is served, and no
step ends in a fault. -/
def Obligations.AccessRefusedExactly : Prop :=
  ∀ (s : State) (a : HostAction) (rest : List HostAction), s.inbox = a :: rest →
    (a.allowed = true → ∃ t, step s = .next t) ∧ (a.allowed = false → ∃ r, step s = .refused r)

/-- R24, R25, R54: what a read of each register gives back, that a write of RESULT is ignored, and that none of the three
changes the engine. That a write of RESULT gives the host the reply `.written` is the model's choice (log entry 19). -/
def Obligations.RegisterReads : Prop :=
  ∀ (s : State) (rest : List HostAction) (data : Word),
    (s.inbox = .read 0 32 :: rest →
      step s = .next { s with inbox := rest, replies := s.replies ++ [.value 0] })
    ∧ (s.inbox = .read 4 32 :: rest →
      ∃ v : Word, step s = .next { s with inbox := rest, replies := s.replies ++ [.value v] }
        ∧ v.extractLsb' 0 2 = s.result.extractLsb' 0 2 ∧ v.extractLsb' 2 30 = 0)
    ∧ (s.inbox = .write 4 32 data :: rest →
      step s = .next { s with inbox := rest, replies := s.replies ++ [.written] })

/-- R220: a power-on reset, with any levels drawn, leaves DM at DEFAULT, RESULT 0, the lines at the levels drawn, the
configuration as it was and an empty trace. That a reset is one of the host's actions, and that it leaves the rest of
`inbox` and `replies` alone, is the model's choice (log entries 5 and 7). -/
def Obligations.PowerOnReset : Prop :=
  ∀ (s : State) (clk dat : Bool) (rest : List HostAction), s.inbox = .powerOn clk dat :: rest →
    ∃ t, step s = .next t ∧ (∀ i, i < s.config.n → t.readDm i = s.config.defaultPattern.getD i 0)
      ∧ t.result = 0 ∧ t.clk = clk ∧ t.dat = dat ∧ t.cfg = s.cfg ∧ t.trace = []
      ∧ t.inbox = rest ∧ t.replies = s.replies

/-- R220 for the state after reset. The installed configuration and the two levels are the model's free values (log
entries 1 and 2). -/
def Obligations.ResetState : Prop :=
  (∀ i, i < State.reset.config.n → State.reset.readDm i = State.reset.config.defaultPattern.getD i 0)
    ∧ State.reset.result = 0 ∧ State.reset.trace = []
    ∧ State.reset.clk = State.reset.config.clkReset ∧ State.reset.dat = State.reset.config.datReset

/-- The invariant holds right after reset (R23, R24, R220). -/
def Obligations.ResetMeetsInvariant : Prop := State.reset.Inv

/-- Every step keeps the invariant: Display Memory keeps its canonical form, so no byte outside 0 to N-1 is ever written
(R55, R124), and bits 31:2 of RESULT stay 0 (R24). -/
def Obligations.StepKeepsInvariant : Prop := ∀ s t : State, s.Inv → step s = .next t → t.Inv

/-- R26, R83, R124, R232: no step changes the configuration, and with it the tables, the frame constants, the delays and
the length of Display Memory. -/
def Obligations.StepKeepsConfiguration : Prop := ∀ s t : State, step s = .next t → t.cfg = s.cfg

/-- R195, R200: every command completes in every state, and changes neither the configuration nor the host port. -/
def Obligations.EveryCommandCompletes : Prop := ∀ (i : Instr) (s : State), ∃ t, exec i s = .next t ∧ s.SamePort t

/-- R200, R202: the result code of every word in every state, by its causes in their order. -/
def Obligations.ResultCodeOfEveryWord : Prop :=
  ∀ (w : Word) (s : State), ∃ t, step (s.withCommand w) = .next t
    ∧ (illegalWord w → t.result = 3)
    ∧ (¬illegalWord w → w >>> 28 = 5#32 → 10 ≤ (cmdFt w).toNat → t.result = 2)
    ∧ (∀ f, ¬illegalWord w → w >>> 28 = 5#32 → (cmdFt w).toNat = Field.all.idxOf f →
        (¬fieldAdmits f (cmdVal w).toInt → t.result = 1) ∧ (fieldAdmits f (cmdVal w).toInt → t.result = 0))
    ∧ (¬illegalWord w → w >>> 28 ≠ 5#32 → t.result = 0)

/-- R201: a command that ends with code 1, 2 or 3 changes only RESULT. -/
def Obligations.ErrorChangesOnlyResult : Prop :=
  ∀ (w : Word) (s t : State), step (s.withCommand w) = .next t → t.result ≠ 0 →
    (t.result = 1 ∨ t.result = 2 ∨ t.result = 3)
    ∧ t = { s with result := t.result, replies := s.replies ++ [.written] }

/-- R151: an unknown field type sets RESULT to 2 and changes nothing else, whatever its value. -/
def Obligations.UnknownFieldTypes : Prop :=
  ∀ (v : Int) (s : State),
    exec (.setf10 v) s = .next { s with result := 2 } ∧ exec (.setf11 v) s = .next { s with result := 2 }
    ∧ exec (.setf12 v) s = .next { s with result := 2 } ∧ exec (.setf13 v) s = .next { s with result := 2 }
    ∧ exec (.setf14 v) s = .next { s with result := 2 } ∧ exec (.setf15 v) s = .next { s with result := 2 }

/-- R150, R162: every `SETF` of a known field with a value the field admits ends with one transfer of the whole buffer,
also when no byte changed; with any other value it sets RESULT to 1 and changes nothing else. -/
def Obligations.SetfSendsWholeBuffer : Prop :=
  ∀ (f : Field) (v : Int) (s : State),
    (fieldAdmits f v → ∃ t, exec (setfCommand f v) s = .next t ∧ s.SentWhole t
      ∧ t.trace.length = s.trace.length + (16 + 33 * (s.config.n + 2)))
    ∧ (¬fieldAdmits f v → exec (setfCommand f v) s = .next { s with result := 1 })

/-- R152: indicator k is set exactly when k does not exceed the level; every other bit is kept. -/
def Obligations.SetSignalShowsLevel : Prop :=
  ∀ (v : Int) (s : State),
    (0 ≤ v ∧ v ≤ 5 → ∃ t, exec (.setfSignal v) s = .next t ∧ s.SentWhole t ∧ s.KeepsOutside .signal t
      ∧ t.MaskIs s.config.layout.sigB1 s.config.layout.sigM1 (1 ≤ v)
      ∧ t.MaskIs s.config.layout.sigB1 s.config.layout.sigM2 (2 ≤ v)
      ∧ t.MaskIs s.config.layout.sigB1 s.config.layout.sigM3 (3 ≤ v)
      ∧ t.MaskIs s.config.layout.sigB4 s.config.layout.sigM4 (4 ≤ v)
      ∧ t.MaskIs s.config.layout.sigB5 s.config.layout.sigM5 (5 ≤ v))
    ∧ (v < 0 ∨ 5 < v → exec (.setfSignal v) s = .next { s with result := 1 })

/-- R153: the one bit of the bell is set for 1 and cleared for 0; every other bit is kept. -/
def Obligations.SetBellWritesOneBit : Prop :=
  ∀ (v : Int) (s : State),
    (v = 0 ∨ v = 1 → ∃ t, exec (.setfBell v) s = .next t ∧ s.SentWhole t ∧ s.KeepsOutside .bell t
      ∧ t.MaskIs s.config.layout.bellB s.config.layout.bellM (v = 1))
    ∧ (v < 0 ∨ 1 < v → exec (.setfBell v) s = .next { s with result := 1 })

/-- R154, with R134 and R138: the two digits of the hour in their three bytes; every other bit is kept. -/
def Obligations.SetHourShowsDigits : Prop :=
  ∀ (v : Int) (s : State),
    (0 ≤ v ∧ v ≤ 23 → ∃ t, exec (.setfHour v) s = .next t ∧ s.SentWhole t
      ∧ s.ShowsB2 t s.config.layout.hourA s.config.layout.hourB s.config.layout.hourC (v.toNat / 10) (v.toNat % 10)
      ∧ s.KeepsBytes t [s.config.layout.hourA, s.config.layout.hourB, s.config.layout.hourC])
    ∧ (v < 0 ∨ 23 < v → exec (.setfHour v) s = .next { s with result := 1 })

/-- R155: the two digits of the minute. -/
def Obligations.SetMinuteShowsDigits : Prop :=
  ∀ (v : Int) (s : State),
    (0 ≤ v ∧ v ≤ 59 → ∃ t, exec (.setfMinute v) s = .next t ∧ s.SentWhole t
      ∧ s.ShowsB2 t s.config.layout.minA s.config.layout.minB s.config.layout.minC (v.toNat / 10) (v.toNat % 10)
      ∧ s.KeepsBytes t [s.config.layout.minA, s.config.layout.minB, s.config.layout.minC])
    ∧ (v < 0 ∨ 59 < v → exec (.setfMinute v) s = .next { s with result := 1 })

/-- R156: the two digits of the score. -/
def Obligations.SetScoreShowsDigits : Prop :=
  ∀ (v : Int) (s : State),
    (0 ≤ v ∧ v ≤ 99 → ∃ t, exec (.setfScore v) s = .next t ∧ s.SentWhole t
      ∧ s.ShowsB2 t s.config.layout.scoreA s.config.layout.scoreB s.config.layout.scoreC (v.toNat / 10)
          (v.toNat % 10)
      ∧ s.KeepsBytes t [s.config.layout.scoreA, s.config.layout.scoreB, s.config.layout.scoreC])
    ∧ (v < 0 ∨ 99 < v → exec (.setfScore v) s = .next { s with result := 1 })

/-- R157: the body bit from level 1 on, the bars of the level in the low nibble of the second byte, everything else kept;
levels 0 and 1 clear the nibble. -/
def Obligations.SetBatteryShowsLevel : Prop :=
  ∀ (v : Int) (s : State),
    (0 ≤ v ∧ v ≤ 4 → ∃ t, exec (.setfBattery v) s = .next t ∧ s.SentWhole t ∧ s.KeepsOutside .battery t
      ∧ t.MaskIs s.config.layout.batB1 s.config.layout.batM1 (1 ≤ v)
      ∧ (t.readDm s.config.layout.batB2).extractLsb' 0 4
          = ([0x0, 0x0, 0x8, 0x9, 0xD] : List (BitVec 4)).getD v.toNat 0)
    ∧ (v < 0 ∨ 4 < v → exec (.setfBattery v) s = .next { s with result := 1 })

/-- R158: a negative value shows the sentinel and the digit of its absolute value, any other its two digits; bit 7 of both
bytes and every other byte are kept. -/
def Obligations.SetTemp1ShowsValue : Prop :=
  ∀ (v : Int) (s : State),
    (-9 ≤ v ∧ v < 0 → ∃ t, exec (.setfTemp1 v) s = .next t ∧ s.SentWhole t
      ∧ s.ShowsA t s.config.layout.t1T 0 ∧ s.ShowsA t s.config.layout.t1U (v.natAbs + 1)
      ∧ s.KeepsBytes t [s.config.layout.t1T, s.config.layout.t1U])
    ∧ (0 ≤ v ∧ v ≤ 99 → ∃ t, exec (.setfTemp1 v) s = .next t ∧ s.SentWhole t
      ∧ s.ShowsA t s.config.layout.t1T (v.toNat / 10 + 1) ∧ s.ShowsA t s.config.layout.t1U (v.toNat % 10 + 1)
      ∧ s.KeepsBytes t [s.config.layout.t1T, s.config.layout.t1U])
    ∧ (v < -9 ∨ 99 < v → exec (.setfTemp1 v) s = .next { s with result := 1 })

/-- R159: the second temperature channel, in its own byte pair. -/
def Obligations.SetTemp2ShowsValue : Prop :=
  ∀ (v : Int) (s : State),
    (-9 ≤ v ∧ v < 0 → ∃ t, exec (.setfTemp2 v) s = .next t ∧ s.SentWhole t
      ∧ s.ShowsA t s.config.layout.t2T 0 ∧ s.ShowsA t s.config.layout.t2U (v.natAbs + 1)
      ∧ s.KeepsBytes t [s.config.layout.t2T, s.config.layout.t2U])
    ∧ (0 ≤ v ∧ v ≤ 99 → ∃ t, exec (.setfTemp2 v) s = .next t ∧ s.SentWhole t
      ∧ s.ShowsA t s.config.layout.t2T (v.toNat / 10 + 1) ∧ s.ShowsA t s.config.layout.t2U (v.toNat % 10 + 1)
      ∧ s.KeepsBytes t [s.config.layout.t2T, s.config.layout.t2U])
    ∧ (v < -9 ∨ 99 < v → exec (.setfTemp2 v) s = .next { s with result := 1 })

/-- R160: the two digits of the humidity. -/
def Obligations.SetHumidityShowsDigits : Prop :=
  ∀ (v : Int) (s : State),
    (0 ≤ v ∧ v ≤ 99 → ∃ t, exec (.setfHumidity v) s = .next t ∧ s.SentWhole t
      ∧ s.ShowsA t s.config.layout.humT (v.toNat / 10 + 1) ∧ s.ShowsA t s.config.layout.humU (v.toNat % 10 + 1)
      ∧ s.KeepsBytes t [s.config.layout.humT, s.config.layout.humU])
    ∧ (v < 0 ∨ 99 < v → exec (.setfHumidity v) s = .next { s with result := 1 })

/-- R161: the hundreds and tens bytes gain the bits of their patterns and lose none; the units byte is overwritten but for
bit 7; every other byte is kept. -/
def Obligations.SetCo2OrsHundredsAndTens : Prop :=
  ∀ (v : Int) (s : State),
    (0 ≤ v ∧ v ≤ 999 → ∃ t, exec (.setfCo2 v) s = .next t ∧ s.SentWhole t
      ∧ t.readDm s.config.layout.co2H
          = s.readDm s.config.layout.co2H ||| tableA s.config (v.toNat / 100 + 1)
      ∧ t.readDm s.config.layout.co2T
          = s.readDm s.config.layout.co2T ||| tableA s.config (v.toNat / 10 % 10 + 1)
      ∧ s.ShowsA t s.config.layout.co2U (v.toNat % 10 + 1)
      ∧ s.KeepsBytes t [s.config.layout.co2H, s.config.layout.co2T, s.config.layout.co2U])
    ∧ (v < 0 ∨ 999 < v → exec (.setfCo2 v) s = .next { s with result := 1 })

/-- R190: INIT emits the setup, the startup delay and the initialisation frame, leaves both lines low and RESULT 0, and
does not touch Display Memory. -/
def Obligations.InitSendsConfiguration : Prop :=
  ∀ s : State, ∃ t, exec .init s = .next t
    ∧ t.trace = s.trace ++ .setup :: .waitMs s.config.startupMs :: frameEvents s.config
        ((if s.config.initAddrPrefix = true then [s.config.deviceAddr] else [])
          ++ [s.config.initCmds.display, s.config.initCmds.blanking, s.config.initCmds.power, s.config.initCmds.mode])
    ∧ t.trace.length = s.trace.length + (if s.config.initAddrPrefix = true then 183 else 150)
    ∧ t.AtRest ∧ t.result = 0 ∧ t.dm = s.dm ∧ s.SamePort t

/-- R191, R121: CLR leaves every byte 0 and sends N zero bytes. -/
def Obligations.ClrClearsAndSends : Prop :=
  ∀ s : State, ∃ t, exec .clr s = .next t ∧ s.SentWhole t ∧ (∀ i, i < s.config.n → t.readDm i = 0x00)
    ∧ t.trace = s.trace ++ dataFrame s.config (List.replicate s.config.n 0x00)

/-- R192, R122: FILL leaves every byte 0xFF and sends N bytes of ones. -/
def Obligations.FillSetsAndSends : Prop :=
  ∀ s : State, ∃ t, exec .fill s = .next t ∧ s.SentWhole t ∧ (∀ i, i < s.config.n → t.readDm i = 0xFF)
    ∧ t.trace = s.trace ++ dataFrame s.config (List.replicate s.config.n 0xFF)

/-- R193, R123: LDEF leaves DM at DEFAULT and sends it. -/
def Obligations.LdefLoadsDefaultAndSends : Prop :=
  ∀ s : State, ∃ t, exec .ldef s = .next t ∧ s.SentWhole t
    ∧ (∀ i, i < s.config.n → t.readDm i = s.config.defaultPattern.getD i 0)
    ∧ t.trace = s.trace ++ dataFrame s.config s.config.defaultPattern

/-- R195: the chip commands cannot fail; each ends with RESULT 0 and the lines at rest. -/
def Obligations.ChipCommandsCannotFail : Prop :=
  ∀ s : State, ∀ i ∈ [Instr.init, Instr.clr, Instr.fill, Instr.ldef],
    ∃ t, step (s.withCommand (encode i)) = .next t ∧ t.result = 0 ∧ t.AtRest

/-- R81, R190, R191 and property P7: INIT then CLR transmit the two frames, one after the other. -/
def Obligations.InitThenClrTransmits : Prop :=
  ∀ s : State, ∃ t u, exec .init s = .next t ∧ exec .clr t = .next u
    ∧ u.trace = s.trace ++ (initEvents s.config ++ dataFrame s.config (List.replicate s.config.n 0x00))

/-- R100 to R103: what each line primitive writes and emits, on every call, and nothing else. -/
def Obligations.LinePrimitives : Prop :=
  ∀ (s : State) (b : Bool) (k : Nat),
    s.setClk b = { s with clk := b, trace := s.trace ++ [.setClk b] }
    ∧ s.setDat b = { s with dat := b, trace := s.trace ++ [.setDat b] }
    ∧ s.waitUs k = { s with trace := s.trace ++ [.waitUs k] }
    ∧ s.waitMs k = { s with trace := s.trace ++ [.waitMs k] }

/-- R104: the events of a start, both lines low after it, and what a receiver sees of it from each of the four entry
levels: entered with CLK high and DAT low it makes a stop condition first. -/
def Obligations.BusStartSequence : Prop :=
  (∀ s : State, s.busStart = { s with
      clk := false, dat := false,
      trace := s.trace ++ [.setDat true, .waitUs s.config.unitUs, .setClk true, .waitUs s.config.unitUs,
        .setDat false, .waitUs s.config.unitUs, .setClk false, .waitUs s.config.unitUs] })
    ∧ ∀ c : Config,
      observe c ⟨false, false⟩ (startCell c) = [.rise true, .start, .fall]
      ∧ observe c ⟨false, true⟩ (startCell c) = [.rise true, .start, .fall]
      ∧ observe c ⟨true, true⟩ (startCell c) = [.start, .fall]
      ∧ observe c ⟨true, false⟩ (startCell c) = [.stop, .start, .fall]

/-- R105, R113: the events of a stop, both lines low after it, the start condition right after the stop condition, and the
start condition before it when entered with CLK low and DAT high. -/
def Obligations.BusStopSequence : Prop :=
  (∀ s : State, s.busStop = { s with
      clk := false, dat := false,
      trace := s.trace ++ [.setClk true, .waitUs s.config.unitUs, .setDat false, .waitUs s.config.unitUs,
        .setDat true, .waitUs s.config.unitUs, .setDat false, .setClk false] })
    ∧ ∀ c : Config,
      observe c ⟨false, false⟩ (stopCell c) = [.rise false, .stop, .start, .fall]
      ∧ observe c ⟨false, true⟩ (stopCell c) = [.rise true, .start, .stop, .start, .fall]

/-- R106, R116: the 33 events of a byte, bit 7 first, no wait among the bits; both lines low after it; no start or stop
condition inside it, from any entry levels. -/
def Obligations.SendByteSequence : Prop :=
  (∀ (v : Byte) (s : State), ∃ es, s.sendByte v = { s with clk := false, dat := false, trace := s.trace ++ es }
      ∧ es.length = 33
      ∧ es = .setClk false ::
          ([7, 6, 5, 4, 3, 2, 1, 0].flatMap fun k => [.setClk false, .setDat (v.getLsbD k), .setClk true])
        ++ [.setClk false, .waitUs s.config.unitUs, .setDat false, .waitUs s.config.unitUs,
            .setClk true, .waitUs (2 * s.config.unitUs), .setClk false, .waitUs s.config.unitUs])
    ∧ ∀ (c : Config) (v : Byte) (l : Lines),
        Sight.start ∉ observe c l (byteCell c v) ∧ Sight.stop ∉ observe c l (byteCell c v)

/-- R107, R108, R109: a transaction is one frame of the device address, the register select and its payload, and rests
both lines; a transfer is the transaction of the whole buffer in index order; the counts of their events and waits. -/
def Obligations.TransactionAndTransferCounts : Prop :=
  ∀ (s : State) (p : List Byte), ∃ es, (s.writeTransaction p).trace = s.trace ++ es
    ∧ es = startCell s.config ++ (byteCell s.config s.config.deviceAddr ++ (byteCell s.config s.config.regSel
        ++ (p.flatMap (byteCell s.config) ++ stopCell s.config)))
    ∧ (startCell s.config).length = 8 ∧ (stopCell s.config).length = 8
    ∧ (∀ v, (byteCell s.config v).length = 33)
    ∧ es.length = 16 + 33 * (p.length + 2)
    ∧ waitTotal es = 7 * s.config.unitUs + (p.length + 2) * (3 * s.config.unitUs + s.config.ackUs)
    ∧ (s.writeTransaction p).AtRest
    ∧ s.transfer = s.writeTransaction ((List.range s.config.n).map s.readDm)

/-- R110, R113: what a receiver sees of a whole frame entered with the lines at rest, of a transaction's and of INIT's: the
start condition; for each byte eight clock pulses with its bits, most significant first, and a ninth with DAT low; a clock
rise with DAT low, the stop condition, and the start condition right after it. -/
def Obligations.ReceiverSeesFrame : Prop :=
  ∀ (s : State) (p : List Byte), s.AtRest →
    (∃ es, (s.sendFrame p).trace = s.trace ++ es ∧ observe s.config s.lines es = frameSights p)
    ∧ ∃ es, (s.writeTransaction p).trace = s.trace ++ es
      ∧ observe s.config s.lines es = frameSights (s.config.deviceAddr :: s.config.regSel :: p)

/-- R114: the levels each primitive leaves, whatever it was entered with; after a reset the lines hold the levels drawn,
after the line setup the configured ones. -/
def Obligations.PrimitivesLeaveLinesLow : Prop :=
  ∀ (s : State) (v : Byte) (p : List Byte) (clk dat : Bool),
    s.busStart.AtRest ∧ s.busStop.AtRest ∧ (s.sendByte v).AtRest ∧ (s.writeTransaction p).AtRest ∧ s.transfer.AtRest
    ∧ (s.lineSetup.clk = s.config.setupClk ∧ s.lineSetup.dat = s.config.setupDat)
    ∧ ((s.powerOn clk dat).clk = clk ∧ (s.powerOn clk dat).dat = dat)

/-- R31, R57: every command only appends to the trace, and replaying what it appended against the latches it met gives the
latches it leaves. -/
def Obligations.LatchesAreReplayOfTrace : Prop :=
  ∀ (i : Instr) (s t : State), exec i s = .next t →
    ∃ es, t.trace = s.trace ++ es ∧ replay s.config s.lines es = t.lines

/-- R28: a frame runs through the phases start, byte 0 to byte len-1, stop, in that order. -/
def Obligations.FramePhasesInOrder : Prop :=
  ∀ (p : List Byte) (s : State), s.sendFrame p = (framePhases p.length).foldl (State.runPhase p) s

/-- R164: a `SETF` of one field changes no bit outside its footprint, and no bit of any other field. -/
def Obligations.FieldsDoNotInterfere : Prop :=
  ∀ (f : Field) (v : Int) (s t : State), exec (setfCommand f v) s = .next t →
    s.KeepsOutside f t
    ∧ ∀ g, g ≠ f → ∀ i, t.readDm i &&& s.config.layout.footprintAt g i = s.readDm i &&& s.config.layout.footprintAt g i

/-- R165, first sentences: for every field but CO2 the bits of the footprint after a successful `SETF` depend on the value
and the configuration alone, and setting a value twice leaves the bytes that setting it once leaves. -/
def Obligations.FieldBitsDependOnValueAlone : Prop :=
  ∀ (f : Field) (v : Int) (s₁ s₂ t₁ t₂ : State), f ≠ .co2 → fieldAdmits f v → s₁.cfg = s₂.cfg →
    exec (setfCommand f v) s₁ = .next t₁ → exec (setfCommand f v) s₂ = .next t₂ →
    (∀ i, t₁.readDm i &&& s₁.config.layout.footprintAt f i = t₂.readDm i &&& s₁.config.layout.footprintAt f i)
    ∧ ∃ u, exec (setfCommand f v) t₁ = .next u ∧ ∀ i, u.readDm i = t₁.readDm i

/-- R165, on the signal bars, and property P2: levels 0, 5, 0 in a row leave the five indicators clear and every other bit
as it was. -/
def Obligations.SignalRoundTrip : Prop :=
  ∀ s : State, ∃ t u w, exec (.setfSignal 0) s = .next t ∧ exec (.setfSignal 5) t = .next u
    ∧ exec (.setfSignal 0) u = .next w ∧ s.KeepsOutside .signal w
    ∧ (∀ i, w.readDm i &&& s.config.layout.footprintAt .signal i = 0)
    ∧ (u.readDm s.config.layout.sigB4 &&& s.config.layout.sigM4 = s.config.layout.sigM4)

/-- R166, R136 on bit 7 of the Table A bytes. CLR, FILL and LDEF write it; no other command does but a `SETF` of a field
whose footprint has that bit; and where it is in no field's footprint, which R166 says and R8 does not ask (log entry 20),
no other command does at all. The four Table A fields keep bit 7 of every byte in every layout. -/
def Obligations.TableAFieldsKeepTopBit : Prop :=
  (∀ (s : State), ∀ b ∈ s.config.layout.tableABytes,
    (∀ (i : Instr) (t : State), i ∉ [Instr.clr, Instr.fill, Instr.ldef] →
        (∀ f v, i = setfCommand f v → (s.config.layout.footprintAt f b).getLsbD 7 = false) →
        exec i s = .next t → (t.readDm b).getLsbD 7 = (s.readDm b).getLsbD 7)
    ∧ (s.config.layout.reservesTopBits = true →
        (∀ f, (s.config.layout.footprintAt f b).getLsbD 7 = false)
        ∧ ∀ (i : Instr) (t : State), i ∉ [Instr.clr, Instr.fill, Instr.ldef] → exec i s = .next t →
          (t.readDm b).getLsbD 7 = (s.readDm b).getLsbD 7)
    ∧ (∀ t, exec .clr s = .next t → (t.readDm b).getLsbD 7 = false)
    ∧ (∀ t, exec .fill s = .next t → (t.readDm b).getLsbD 7 = true)
    ∧ (∀ t, exec .ldef s = .next t →
        (t.readDm b).getLsbD 7 = (s.config.defaultPattern.getD b 0).getLsbD 7))
  ∧ ∀ f ∈ [Field.temp1, Field.temp2, Field.humidity, Field.co2], ∀ (v : Int) (s t : State),
    exec (setfCommand f v) s = .next t → ∀ i, (t.readDm i).getLsbD 7 = (s.readDm i).getLsbD 7

/-- R226: a second CO2 value leaves the segments of the first in the hundreds and tens bytes, and after CLR a value shows
alone. -/
def Obligations.Co2CarriesOverUntilCleared : Prop :=
  ∀ (v₁ v₂ : Int) (s : State), fieldAdmits .co2 v₁ → fieldAdmits .co2 v₂ → ∃ t u w x,
    exec (.setfCo2 v₁) s = .next t ∧ exec (.setfCo2 v₂) t = .next u
    ∧ exec .clr u = .next w ∧ exec (.setfCo2 v₂) w = .next x
    ∧ u.readDm s.config.layout.co2H = s.readDm s.config.layout.co2H ||| tableA s.config (v₁.toNat / 100 + 1)
        ||| tableA s.config (v₂.toNat / 100 + 1)
    ∧ u.readDm s.config.layout.co2T = s.readDm s.config.layout.co2T ||| tableA s.config (v₁.toNat / 10 % 10 + 1)
        ||| tableA s.config (v₂.toNat / 10 % 10 + 1)
    ∧ x.readDm s.config.layout.co2H = tableA s.config (v₂.toNat / 100 + 1)
    ∧ x.readDm s.config.layout.co2T = tableA s.config (v₂.toNat / 10 % 10 + 1)

/-- R229, R122: after FILL bits 6:0 of the CO2 hundreds and tens bytes and every bit outside all footprints are set, and
every command but CLR and LDEF leaves them so; where bit 7 of the Table A bytes is in no footprint (R166, log entry 20),
the two bytes are then 0xFF. -/
def Obligations.FillLeavesBitsBehind : Prop :=
  (∀ s t : State, exec .fill s = .next t → t.Lit)
    ∧ (∀ (i : Instr) (s t : State), i ∉ [Instr.clr, Instr.ldef] → s.Lit → exec i s = .next t → t.Lit)
    ∧ ∀ s : State, s.Lit → s.config.layout.reservesTopBits = true →
        s.readDm s.config.layout.co2H = 0xFF ∧ s.readDm s.config.layout.co2T = 0xFF

/-- R141: the value 0 in a Table B field writes the bits of `TB(1)` into both digit positions. -/
def Obligations.ZeroShowsEntryOne : Prop :=
  ∀ s : State, ∃ t u w, exec (.setfHour 0) s = .next t ∧ exec (.setfMinute 0) s = .next u
    ∧ exec (.setfScore 0) s = .next w
    ∧ ∀ p ∈ [(t, s.config.layout.hourA, s.config.layout.hourB, s.config.layout.hourC),
             (u, s.config.layout.minA, s.config.layout.minB, s.config.layout.minC),
             (w, s.config.layout.scoreA, s.config.layout.scoreB, s.config.layout.scoreC)],
        p.1.readDm p.2.1 &&& 0x0F = tableB s.config 1 >>> 4
        ∧ p.1.readDm p.2.2.1 &&& 0xEF = ((tableB s.config 1 &&& 0x07) <<< 5) ||| (tableB s.config 1 >>> 4)
        ∧ p.1.readDm p.2.2.2 &&& 0xE0 = (tableB s.config 1 &&& 0x07) <<< 5

/-- R62, R63: the two masked writes on a byte of Display Memory, and no other byte. Every `MergeByte` call of the model,
those of `PutA`, `PutB2`, `SetSignal`, `SetBell` and `SetBattery`, has `val & keep = 0`. -/
def Obligations.MaskedWrites : Prop :=
  (∀ (s : State) (i : Nat) (keep val : Byte), i < s.config.n →
    (s.mergeByte i keep val).readDm i = (s.readDm i &&& keep) ||| val
    ∧ s.KeepsBytes (s.mergeByte i keep val) [i]
    ∧ (s.orByte i val).readDm i = s.readDm i ||| val
    ∧ s.KeepsBytes (s.orByte i val) [i]
    ∧ (val &&& keep = 0 →
        (s.mergeByte i keep val).readDm i &&& ~~~keep = val
        ∧ (s.mergeByte i keep val).readDm i &&& keep = s.readDm i &&& keep))
  ∧ (∀ (s : State) (i k : Nat), k ≤ 10 → s.MergesDisjointly (s.putA i k) [(i, 0x80, tableA s.config k)])
  ∧ (∀ (s : State) (a b c d u : Nat), s.MergesDisjointly (s.putB2 a b c d u)
      [(a, 0xF0, tableB s.config (digitIndex d) >>> 4),
       (b, 0x10, middleBits (tableB s.config (digitIndex d)) (tableB s.config (digitIndex u))),
       (c, 0x1F, (tableB s.config (digitIndex u) &&& 0x07) <<< 5)])
  ∧ ∀ (s : State) (v : Int), let l := s.config.layout
    s.MergesDisjointly (s.setSignal v)
      [(l.sigB1, ~~~(l.sigM1 ||| l.sigM2 ||| l.sigM3), tier 1 (magnitude v) l.sigM1
          ||| tier 2 (magnitude v) l.sigM2 ||| tier 3 (magnitude v) l.sigM3),
       (l.sigB4, ~~~l.sigM4, tier 4 (magnitude v) l.sigM4),
       (l.sigB5, ~~~l.sigM5, tier 5 (magnitude v) l.sigM5)]
    ∧ s.MergesDisjointly (s.setBell v) [(l.bellB, ~~~l.bellM, if v = 1 then l.bellM else 0)]
    ∧ s.MergesDisjointly (s.setBattery v)
      [(l.batB1, ~~~l.batM1, tier 1 (magnitude v) l.batM1), (l.batB2, 0xF0, batteryBars (magnitude v))]

/-- R136, R137: `PutA` writes bits 6:0 and keeps bit 7; `OrA` sets the bits of the pattern and changes no other, bit 7
among them. -/
def Obligations.TableAMerges : Prop :=
  ∀ (s : State) (i k : Nat), i < s.config.n → k ≤ 10 →
    s.ShowsA (s.putA i k) i k ∧ s.KeepsBytes (s.putA i k) [i]
    ∧ (s.orA i k).readDm i = s.readDm i ||| tableA s.config k
    ∧ ((s.orA i k).readDm i).getLsbD 7 = (s.readDm i).getLsbD 7
    ∧ s.KeepsBytes (s.orA i k) [i]
    ∧ ∀ j, ((s.orA i k).orA i k).readDm j = (s.orA i k).readDm j

/-- R138, R139: `PutB2` writes its three bytes bit by bit as the rule's table says, and a pattern's bit 3 reaches none of
them. -/
def Obligations.TableBMerge : Prop :=
  (∀ (s : State) (a b c d u : Nat), a < s.config.n → b < s.config.n → c < s.config.n →
      a ≠ b → a ≠ c → b ≠ c → d ≤ 9 → u ≤ 9 →
      s.ShowsB2 (s.putB2 a b c d u) a b c d u ∧ s.KeepsBytes (s.putB2 a b c d u) [a, b, c])
    ∧ ∀ pt pu : Byte, middleBits (pt ^^^ 0x08) pu = middleBits pt pu
      ∧ middleBits pt (pu ^^^ 0x08) = middleBits pt pu ∧ (pt ^^^ 0x08) >>> 4 = pt >>> 4

/-- R120 to R123: the whole-buffer operations write every byte of Display Memory, and no latch and no event; the live
buffer is read in index order. -/
def Obligations.WholeBufferOperations : Prop :=
  ∀ s : State, s.dmClearAll.dmGet = List.replicate s.config.n 0x00
    ∧ s.dmFillAll.dmGet = List.replicate s.config.n 0xFF
    ∧ s.dmInitDefault.dmGet = s.config.defaultPattern
    ∧ ∀ t ∈ [s.dmClearAll, s.dmFillAll, s.dmInitDefault],
        t.lines = s.lines ∧ t.trace = s.trace ∧ t.result = s.result ∧ s.SamePort t

/-- R134, R135: the digits of a decomposition are decimal digits and spell the value. -/
def Obligations.DecimalDecomposition : Prop :=
  (∀ v : Nat, v ≤ 99 → (decompose2 v).1 ≤ 9 ∧ (decompose2 v).2 ≤ 9 ∧ 10 * (decompose2 v).1 + (decompose2 v).2 = v)
    ∧ ∀ v : Nat, v ≤ 999 → (decompose3 v).1 ≤ 9 ∧ (decompose3 v).2.1 ≤ 9 ∧ (decompose3 v).2.2 ≤ 9
      ∧ 100 * (decompose3 v).1 + 10 * (decompose3 v).2.1 + (decompose3 v).2.2 = v

/-- R73: the value of a `SETF` is the two's complement of VAL, and every integer from -32768 to 32767 is the value of
one. -/
def Obligations.ValueIsTwosComplement : Prop :=
  (∀ v : BitVec 16, sext16 v = v.toInt) ∧ ∀ x : Int, -32768 ≤ x → x ≤ 32767 → ∃ v : BitVec 16, sext16 v = x

/-- R7: a configuration is admitted only if N is at least 1 and every Table A entry has bit 7 equal to 0; any other has no
machine. -/
def Obligations.AdmittedTablesAndSizes : Prop :=
  (∀ c : Config, ¬(1 ≤ c.n ∧ ∀ k, k ≤ 10 → (tableA c k).getLsbD 7 = false) → c.admitted = false)
    ∧ ∀ s : State, 1 ≤ s.config.n ∧ ∀ k, k ≤ 10 → (tableA s.config k).getLsbD 7 = false

/-- R8, R55: in every state the indices of every footprint lie below N, and the footprints of different fields have no bit
in common at any byte. The second clause is the model's choice (log entry 20, DEDUCED): meeting R7, having N bytes of
DEFAULT, and meeting R8 (its structural rows, the bound on the indices and the disjointness) is enough to be admitted. The
spec's rules say only that a configuration must meet them; that they are enough is inferred from decisions D22 and D38, and
the derived sentences of R166 and R136 on bit 7 speak against it. -/
def Obligations.AdmittedLayout : Prop :=
  (∀ (s : State) (f : Field), (∀ e ∈ s.config.layout.footprint f, e.1 < s.config.n)
    ∧ ∀ g, g ≠ f → ∀ i, s.config.layout.footprintAt f i &&& s.config.layout.footprintAt g i = 0)
  ∧ ∀ c : Config, 1 ≤ c.n → (∀ k, k ≤ 10 → (tableA c k).getLsbD 7 = false) → c.defaultPattern.length = c.n →
    c.layout.shaped = true → (∀ f, ∀ e ∈ c.layout.footprint f, e.1 < c.n) →
    (∀ f g, g ≠ f → ∀ i, c.layout.footprintAt f i &&& c.layout.footprintAt g i = 0) → c.admitted = true
end

