-- ==== Sys2Proof/Laws/State.lean ====
section
/-! SUPPORT. What each named update of the state does to each field, so that no proof unfolds a record update. -/
namespace Sys2Proof.Machine

variable (s : State)

@[simp] theorem State.setResult_cfg (code : BitVec 2) : (s.setResult code).cfg = s.cfg := rfl
@[simp] theorem State.setResult_clk (code : BitVec 2) : (s.setResult code).clk = s.clk := rfl
@[simp] theorem State.setResult_dat (code : BitVec 2) : (s.setResult code).dat = s.dat := rfl
@[simp] theorem State.setResult_dm (code : BitVec 2) : (s.setResult code).dm = s.dm := rfl
@[simp] theorem State.setResult_result (code : BitVec 2) : (s.setResult code).result = code.zeroExtend 32 := rfl
@[simp] theorem State.setResult_trace (code : BitVec 2) : (s.setResult code).trace = s.trace := rfl
@[simp] theorem State.setResult_inbox (code : BitVec 2) : (s.setResult code).inbox = s.inbox := rfl
@[simp] theorem State.setResult_replies (code : BitVec 2) : (s.setResult code).replies = s.replies := rfl

@[simp] theorem State.emit_cfg (e : Event) : (s.emit e).cfg = s.cfg := rfl
@[simp] theorem State.emit_clk (e : Event) : (s.emit e).clk = s.clk := rfl
@[simp] theorem State.emit_dat (e : Event) : (s.emit e).dat = s.dat := rfl
@[simp] theorem State.emit_dm (e : Event) : (s.emit e).dm = s.dm := rfl
@[simp] theorem State.emit_result (e : Event) : (s.emit e).result = s.result := rfl
@[simp] theorem State.emit_trace (e : Event) : (s.emit e).trace = s.trace ++ [e] := rfl
@[simp] theorem State.emit_inbox (e : Event) : (s.emit e).inbox = s.inbox := rfl
@[simp] theorem State.emit_replies (e : Event) : (s.emit e).replies = s.replies := rfl

@[simp] theorem State.setClk_cfg (b : Bool) : (s.setClk b).cfg = s.cfg := rfl
@[simp] theorem State.setClk_clk (b : Bool) : (s.setClk b).clk = b := rfl
@[simp] theorem State.setClk_dat (b : Bool) : (s.setClk b).dat = s.dat := rfl
@[simp] theorem State.setClk_dm (b : Bool) : (s.setClk b).dm = s.dm := rfl
@[simp] theorem State.setClk_result (b : Bool) : (s.setClk b).result = s.result := rfl
@[simp] theorem State.setClk_trace (b : Bool) : (s.setClk b).trace = s.trace ++ [.setClk b] := rfl
@[simp] theorem State.setClk_inbox (b : Bool) : (s.setClk b).inbox = s.inbox := rfl
@[simp] theorem State.setClk_replies (b : Bool) : (s.setClk b).replies = s.replies := rfl

@[simp] theorem State.setDat_cfg (b : Bool) : (s.setDat b).cfg = s.cfg := rfl
@[simp] theorem State.setDat_clk (b : Bool) : (s.setDat b).clk = s.clk := rfl
@[simp] theorem State.setDat_dat (b : Bool) : (s.setDat b).dat = b := rfl
@[simp] theorem State.setDat_dm (b : Bool) : (s.setDat b).dm = s.dm := rfl
@[simp] theorem State.setDat_result (b : Bool) : (s.setDat b).result = s.result := rfl
@[simp] theorem State.setDat_trace (b : Bool) : (s.setDat b).trace = s.trace ++ [.setDat b] := rfl
@[simp] theorem State.setDat_inbox (b : Bool) : (s.setDat b).inbox = s.inbox := rfl
@[simp] theorem State.setDat_replies (b : Bool) : (s.setDat b).replies = s.replies := rfl

@[simp] theorem State.waitUs_cfg (us : Nat) : (s.waitUs us).cfg = s.cfg := rfl
@[simp] theorem State.waitUs_clk (us : Nat) : (s.waitUs us).clk = s.clk := rfl
@[simp] theorem State.waitUs_dat (us : Nat) : (s.waitUs us).dat = s.dat := rfl
@[simp] theorem State.waitUs_dm (us : Nat) : (s.waitUs us).dm = s.dm := rfl
@[simp] theorem State.waitUs_result (us : Nat) : (s.waitUs us).result = s.result := rfl
@[simp] theorem State.waitUs_trace (us : Nat) : (s.waitUs us).trace = s.trace ++ [.waitUs us] := rfl
@[simp] theorem State.waitUs_inbox (us : Nat) : (s.waitUs us).inbox = s.inbox := rfl
@[simp] theorem State.waitUs_replies (us : Nat) : (s.waitUs us).replies = s.replies := rfl

@[simp] theorem State.waitMs_cfg (ms : Nat) : (s.waitMs ms).cfg = s.cfg := rfl
@[simp] theorem State.waitMs_clk (ms : Nat) : (s.waitMs ms).clk = s.clk := rfl
@[simp] theorem State.waitMs_dat (ms : Nat) : (s.waitMs ms).dat = s.dat := rfl
@[simp] theorem State.waitMs_dm (ms : Nat) : (s.waitMs ms).dm = s.dm := rfl
@[simp] theorem State.waitMs_result (ms : Nat) : (s.waitMs ms).result = s.result := rfl
@[simp] theorem State.waitMs_trace (ms : Nat) : (s.waitMs ms).trace = s.trace ++ [.waitMs ms] := rfl
@[simp] theorem State.waitMs_inbox (ms : Nat) : (s.waitMs ms).inbox = s.inbox := rfl
@[simp] theorem State.waitMs_replies (ms : Nat) : (s.waitMs ms).replies = s.replies := rfl

@[simp] theorem State.lineSetup_cfg : (s.lineSetup).cfg = s.cfg := rfl
@[simp] theorem State.lineSetup_clk : (s.lineSetup).clk = s.config.setupClk := rfl
@[simp] theorem State.lineSetup_dat : (s.lineSetup).dat = s.config.setupDat := rfl
@[simp] theorem State.lineSetup_dm : (s.lineSetup).dm = s.dm := rfl
@[simp] theorem State.lineSetup_result : (s.lineSetup).result = s.result := rfl
@[simp] theorem State.lineSetup_trace : (s.lineSetup).trace = s.trace ++ [.setup] := rfl
@[simp] theorem State.lineSetup_inbox : (s.lineSetup).inbox = s.inbox := rfl
@[simp] theorem State.lineSetup_replies : (s.lineSetup).replies = s.replies := rfl

@[simp] theorem State.writeDm_cfg (i : Nat) (v : Byte) : (s.writeDm i v).cfg = s.cfg := rfl
@[simp] theorem State.writeDm_clk (i : Nat) (v : Byte) : (s.writeDm i v).clk = s.clk := rfl
@[simp] theorem State.writeDm_dat (i : Nat) (v : Byte) : (s.writeDm i v).dat = s.dat := rfl
@[simp] theorem State.writeDm_dm (i : Nat) (v : Byte) : (s.writeDm i v).dm = Memory.write s.config i v s.dm := rfl
@[simp] theorem State.writeDm_result (i : Nat) (v : Byte) : (s.writeDm i v).result = s.result := rfl
@[simp] theorem State.writeDm_trace (i : Nat) (v : Byte) : (s.writeDm i v).trace = s.trace := rfl
@[simp] theorem State.writeDm_inbox (i : Nat) (v : Byte) : (s.writeDm i v).inbox = s.inbox := rfl
@[simp] theorem State.writeDm_replies (i : Nat) (v : Byte) : (s.writeDm i v).replies = s.replies := rfl

@[simp] theorem State.mergeByte_cfg (i : Nat) (keep val : Byte) : (s.mergeByte i keep val).cfg = s.cfg := rfl
@[simp] theorem State.mergeByte_clk (i : Nat) (keep val : Byte) : (s.mergeByte i keep val).clk = s.clk := rfl
@[simp] theorem State.mergeByte_dat (i : Nat) (keep val : Byte) : (s.mergeByte i keep val).dat = s.dat := rfl
@[simp] theorem State.mergeByte_dm (i : Nat) (keep val : Byte) : (s.mergeByte i keep val).dm = Memory.write s.config i ((s.readDm i &&& keep) ||| val) s.dm := rfl
@[simp] theorem State.mergeByte_result (i : Nat) (keep val : Byte) : (s.mergeByte i keep val).result = s.result := rfl
@[simp] theorem State.mergeByte_trace (i : Nat) (keep val : Byte) : (s.mergeByte i keep val).trace = s.trace := rfl
@[simp] theorem State.mergeByte_inbox (i : Nat) (keep val : Byte) : (s.mergeByte i keep val).inbox = s.inbox := rfl
@[simp] theorem State.mergeByte_replies (i : Nat) (keep val : Byte) : (s.mergeByte i keep val).replies = s.replies := rfl

@[simp] theorem State.orByte_cfg (i : Nat) (val : Byte) : (s.orByte i val).cfg = s.cfg := rfl
@[simp] theorem State.orByte_clk (i : Nat) (val : Byte) : (s.orByte i val).clk = s.clk := rfl
@[simp] theorem State.orByte_dat (i : Nat) (val : Byte) : (s.orByte i val).dat = s.dat := rfl
@[simp] theorem State.orByte_dm (i : Nat) (val : Byte) : (s.orByte i val).dm = Memory.write s.config i (s.readDm i ||| val) s.dm := rfl
@[simp] theorem State.orByte_result (i : Nat) (val : Byte) : (s.orByte i val).result = s.result := rfl
@[simp] theorem State.orByte_trace (i : Nat) (val : Byte) : (s.orByte i val).trace = s.trace := rfl
@[simp] theorem State.orByte_inbox (i : Nat) (val : Byte) : (s.orByte i val).inbox = s.inbox := rfl
@[simp] theorem State.orByte_replies (i : Nat) (val : Byte) : (s.orByte i val).replies = s.replies := rfl

@[simp] theorem State.reply_cfg (r : HostReply) : (s.reply r).cfg = s.cfg := rfl
@[simp] theorem State.reply_clk (r : HostReply) : (s.reply r).clk = s.clk := rfl
@[simp] theorem State.reply_dat (r : HostReply) : (s.reply r).dat = s.dat := rfl
@[simp] theorem State.reply_dm (r : HostReply) : (s.reply r).dm = s.dm := rfl
@[simp] theorem State.reply_result (r : HostReply) : (s.reply r).result = s.result := rfl
@[simp] theorem State.reply_trace (r : HostReply) : (s.reply r).trace = s.trace := rfl
@[simp] theorem State.reply_inbox (r : HostReply) : (s.reply r).inbox = s.inbox := rfl
@[simp] theorem State.reply_replies (r : HostReply) : (s.reply r).replies = s.replies ++ [r] := rfl

@[simp] theorem State.powerOn_cfg (clk dat : Bool) : (s.powerOn clk dat).cfg = s.cfg := rfl
@[simp] theorem State.powerOn_clk (clk dat : Bool) : (s.powerOn clk dat).clk = clk := rfl
@[simp] theorem State.powerOn_dat (clk dat : Bool) : (s.powerOn clk dat).dat = dat := rfl
@[simp] theorem State.powerOn_dm (clk dat : Bool) : (s.powerOn clk dat).dm = [] := rfl
@[simp] theorem State.powerOn_result (clk dat : Bool) : (s.powerOn clk dat).result = 0 := rfl
@[simp] theorem State.powerOn_trace (clk dat : Bool) : (s.powerOn clk dat).trace = [] := rfl
@[simp] theorem State.powerOn_inbox (clk dat : Bool) : (s.powerOn clk dat).inbox = s.inbox := rfl
@[simp] theorem State.powerOn_replies (clk dat : Bool) : (s.powerOn clk dat).replies = s.replies := rfl

@[simp] theorem State.withCommand_cfg (w : Word) : (s.withCommand w).cfg = s.cfg := rfl
@[simp] theorem State.withCommand_clk (w : Word) : (s.withCommand w).clk = s.clk := rfl
@[simp] theorem State.withCommand_dat (w : Word) : (s.withCommand w).dat = s.dat := rfl
@[simp] theorem State.withCommand_dm (w : Word) : (s.withCommand w).dm = s.dm := rfl
@[simp] theorem State.withCommand_result (w : Word) : (s.withCommand w).result = s.result := rfl
@[simp] theorem State.withCommand_trace (w : Word) : (s.withCommand w).trace = s.trace := rfl
@[simp] theorem State.withCommand_inbox (w : Word) : (s.withCommand w).inbox = .write cmdOffset accessWidth w :: s.inbox := rfl
@[simp] theorem State.withCommand_replies (w : Word) : (s.withCommand w).replies = s.replies := rfl

end Sys2Proof.Machine
end

