-- ==== Sys2Proof/Laws/Memory.lean ====
section
/-! SUPPORT. The laws of Display Memory: a read after a write, and the canonical form kept by every operation. -/
namespace Sys2Proof.Machine

theorem Memory.entry_drop_same (i : Nat) (m : Memory) : Memory.entry i (Memory.drop i m) = none := by
  induction m with
  | nil => rfl
  | cons e rest ih =>
    obtain ⟨j, b⟩ := e
    by_cases h : i = j
    · simpa [Memory.drop, h] using h ▸ ih
    · simpa [Memory.drop, Memory.entry, h] using ih

theorem Memory.entry_drop_other {i k : Nat} (h : k ≠ i) (m : Memory) :
    Memory.entry k (Memory.drop i m) = Memory.entry k m := by
  induction m with
  | nil => rfl
  | cons e rest ih =>
    obtain ⟨j, b⟩ := e
    by_cases hj : i = j
    · subst hj
      simp [Memory.drop, Memory.entry, h, ih]
    · simp [Memory.drop, Memory.entry, hj, ih]

theorem Memory.entry_put_same (i : Nat) (v : Byte) (m : Memory) : Memory.entry i (Memory.put i v m) = some v := by
  induction m with
  | nil => simp [Memory.put, Memory.entry]
  | cons e rest ih =>
    obtain ⟨j, b⟩ := e
    unfold Memory.put
    split
    · simp [Memory.entry]
    · split
      · simp [Memory.entry]
      · simp [Memory.entry, *]

theorem Memory.entry_put_other {i k : Nat} (h : k ≠ i) (v : Byte) (m : Memory) :
    Memory.entry k (Memory.put i v m) = Memory.entry k m := by
  induction m with
  | nil => simp [Memory.put, Memory.entry, h]
  | cons e rest ih =>
    obtain ⟨j, b⟩ := e
    unfold Memory.put
    split
    · simp [Memory.entry, h]
    · split
      · rename_i hj
        subst hj
        simp [Memory.entry, h]
      · simp [Memory.entry, ih]

/-- A read after a write to the same byte gives what was written. -/
theorem Memory.read_write_same {c : Config} {i : Nat} (h : i < c.n) (v : Byte) (m : Memory) :
    Memory.read c i (Memory.write c i v m) = v := by
  unfold Memory.read Memory.write
  rw [if_pos h]
  split
  · simp [Memory.entry_drop_same, *]
  · simp [Memory.entry_put_same]

/-- A write leaves every other byte alone. -/
theorem Memory.read_write_other {c : Config} {i k : Nat} (h : k ≠ i) (v : Byte) (m : Memory) :
    Memory.read c k (Memory.write c i v m) = Memory.read c k m := by
  unfold Memory.read Memory.write
  split
  · split
    · rw [Memory.entry_drop_other h]
    · rw [Memory.entry_put_other h]
  · rfl

/-- `i` lies below the first index of `m`, if it has one. -/
def Memory.startsAbove (i : Nat) : Memory → Prop
  | [] => True
  | (j, _) :: _ => i < j

theorem Memory.rising_cons (i : Nat) (b : Byte) (m : Memory) :
    Memory.rising ((i, b) :: m) = true ↔ Memory.startsAbove i m ∧ Memory.rising m = true := by
  cases m with
  | nil => simp [Memory.rising, Memory.startsAbove]
  | cons e rest => simp [Memory.rising, Memory.startsAbove]

theorem Memory.startsAbove_drop {k i : Nat} {m : Memory} (hr : Memory.rising m = true)
    (hk : Memory.startsAbove k m) : Memory.startsAbove k (Memory.drop i m) := by
  induction m with
  | nil => trivial
  | cons e rest ih =>
    obtain ⟨j, b⟩ := e
    rw [Memory.rising_cons] at hr
    have hrest : Memory.startsAbove k rest := by
      cases rest with
      | nil => trivial
      | cons e' _ => exact Nat.lt_trans hk hr.1
    by_cases h : i = j
    · simpa [Memory.drop, h] using h ▸ ih hr.2 hrest
    · simpa [Memory.drop, h, Memory.startsAbove] using hk

theorem Memory.rising_drop (i : Nat) {m : Memory} (hr : Memory.rising m = true) :
    Memory.rising (Memory.drop i m) = true := by
  induction m with
  | nil => rfl
  | cons e rest ih =>
    obtain ⟨j, b⟩ := e
    rw [Memory.rising_cons] at hr
    by_cases h : i = j
    · simpa [Memory.drop, h] using h ▸ ih hr.2
    · simp only [Memory.drop, h, if_false, Memory.rising_cons]
      exact ⟨Memory.startsAbove_drop hr.2 hr.1, ih hr.2⟩

theorem Memory.startsAbove_put {k i : Nat} (v : Byte) {m : Memory} (hk : Memory.startsAbove k m) (hi : k < i) :
    Memory.startsAbove k (Memory.put i v m) := by
  cases m with
  | nil => exact hi
  | cons e rest =>
    obtain ⟨j, b⟩ := e
    unfold Memory.put
    split
    · exact hi
    · split
      · exact hi
      · exact hk

theorem Memory.rising_put (i : Nat) (v : Byte) {m : Memory} (hr : Memory.rising m = true) :
    Memory.rising (Memory.put i v m) = true := by
  induction m with
  | nil => rfl
  | cons e rest ih =>
    obtain ⟨j, b⟩ := e
    have hr' := (Memory.rising_cons j b rest).1 hr
    unfold Memory.put
    split
    · rename_i hij
      exact (Memory.rising_cons _ _ _).2 ⟨hij, hr⟩
    · split
      · rename_i _ hij
        subst hij
        exact (Memory.rising_cons _ _ _).2 hr'
      · rename_i h1 h2
        exact (Memory.rising_cons _ _ _).2 ⟨Memory.startsAbove_put v hr'.1 (by omega), ih hr'.2⟩

theorem Memory.mem_drop {i : Nat} {e : Host.Cell} {m : Memory} (h : e ∈ Memory.drop i m) : e ∈ m := by
  induction m with
  | nil => simp [Memory.drop] at h
  | cons e' rest ih =>
    obtain ⟨j, b⟩ := e'
    unfold Memory.drop at h
    split at h
    · exact List.mem_cons_of_mem _ (ih h)
    · rcases List.mem_cons.1 h with h | h
      · exact h ▸ List.mem_cons_self
      · exact List.mem_cons_of_mem _ (ih h)

theorem Memory.mem_put {i : Nat} {v : Byte} {e : Host.Cell} {m : Memory} (h : e ∈ Memory.put i v m) :
    e = (i, v) ∨ e ∈ m := by
  induction m with
  | nil => simpa [Memory.put] using h
  | cons e' rest ih =>
    obtain ⟨j, b⟩ := e'
    unfold Memory.put at h
    split at h
    · exact List.mem_cons.1 h
    · split at h
      · rcases List.mem_cons.1 h with h | h
        · exact .inl h
        · exact .inr (List.mem_cons_of_mem _ h)
      · rcases List.mem_cons.1 h with h | h
        · exact .inr (h ▸ List.mem_cons_self)
        · exact (ih h).imp id (List.mem_cons_of_mem _)

/-- Every write keeps the canonical form. -/
theorem Memory.write_wf {c : Config} {m : Memory} (i : Nat) (v : Byte) (h : Memory.wf c m = true) :
    Memory.wf c (Memory.write c i v m) = true := by
  unfold Memory.wf at h ⊢
  rw [Bool.and_eq_true, List.all_eq_true] at h ⊢
  unfold Memory.write
  split
  · rename_i hi
    split
    · exact ⟨Memory.rising_drop i h.1, fun e he => h.2 e (Memory.mem_drop he)⟩
    · rename_i hv
      refine ⟨Memory.rising_put i v h.1, fun e he => ?_⟩
      rcases Memory.mem_put he with rfl | he
      · simp [hi, hv]
      · exact h.2 e he
  · exact h

theorem State.readDm_writeDm_same {s : State} {i : Nat} (h : i < s.config.n) (v : Byte) :
    (s.writeDm i v).readDm i = v := Memory.read_write_same h v s.dm

theorem State.readDm_writeDm_other {s : State} {i k : Nat} (h : k ≠ i) (v : Byte) :
    (s.writeDm i v).readDm k = s.readDm k := Memory.read_write_other h v s.dm

/-- A read of Display Memory depends on the configuration and the memory alone. -/
theorem State.readDm_congr {s t : State} (hc : t.cfg = s.cfg) (hm : t.dm = s.dm) (i : Nat) :
    t.readDm i = s.readDm i := by
  unfold State.readDm State.config
  rw [hc, hm]

theorem State.readDm_mergeByte {s : State} {i : Nat} (h : i < s.config.n) (keep val : Byte) (k : Nat) :
    (s.mergeByte i keep val).readDm k = if k = i then (s.readDm i &&& keep) ||| val else s.readDm k := by
  split
  · rename_i hk
    subst hk
    exact State.readDm_writeDm_same h _
  · exact State.readDm_writeDm_other ‹_› _

theorem State.readDm_orByte {s : State} {i : Nat} (h : i < s.config.n) (val : Byte) (k : Nat) :
    (s.orByte i val).readDm k = if k = i then s.readDm i ||| val else s.readDm k := by
  split
  · rename_i hk
    subst hk
    exact State.readDm_writeDm_same h _
  · exact State.readDm_writeDm_other ‹_› _

/-- A whole-buffer write over the first `k` indices. -/
theorem State.readDm_writeBelow (f : Nat → Byte) {k : Nat} {s : State} (h : k ≤ s.config.n) (i : Nat) :
    (s.writeBelow f k).readDm i = if i < k then f i else s.readDm i := by
  induction k with
  | zero => simp [State.writeBelow]
  | succ k ih =>
    have hc : (State.writeBelow f k s).config = s.config := by
      clear ih h
      induction k with
      | zero => rfl
      | succ k ih => exact ih
    unfold State.writeBelow
    by_cases hi : i = k
    · subst hi
      rw [State.readDm_writeDm_same (by rw [hc]; omega), if_pos (by omega)]
    · rw [State.readDm_writeDm_other hi, ih (by omega)]
      have : (i < k) = (i < k + 1) := by
        apply propext
        omega
      simp only [this]

end Sys2Proof.Machine
end

