-- ==== Sys2Proof/Laws/Bus.lean ====
section
/-! SUPPORT. The Bus Protocol Engine in closed form: what each operation leaves, and the events it emits, as one record
update over the wire encoding. -/
namespace Sys2Proof.Machine

/-- The engine after a bus operation: both latches low, `es` emitted, nothing else changed (40_bus_protocol.md R114). -/
def State.afterEvents (es : List Event) (s : State) : State :=
  { s with clk := false, dat := false, trace := s.trace ++ es }

section
variable (es : List Event) (s : State)
@[simp] theorem State.afterEvents_cfg : (s.afterEvents es).cfg = s.cfg := rfl
@[simp] theorem State.afterEvents_clk : (s.afterEvents es).clk = false := rfl
@[simp] theorem State.afterEvents_dat : (s.afterEvents es).dat = false := rfl
@[simp] theorem State.afterEvents_dm : (s.afterEvents es).dm = s.dm := rfl
@[simp] theorem State.afterEvents_result : (s.afterEvents es).result = s.result := rfl
@[simp] theorem State.afterEvents_trace : (s.afterEvents es).trace = s.trace ++ es := rfl
@[simp] theorem State.afterEvents_inbox : (s.afterEvents es).inbox = s.inbox := rfl
@[simp] theorem State.afterEvents_replies : (s.afterEvents es).replies = s.replies := rfl
@[simp] theorem State.afterEvents_readDm (i : Nat) : (s.afterEvents es).readDm i = s.readDm i := rfl
end

theorem State.afterEvents_append (s : State) (es es' : List Event) :
    (s.afterEvents es).afterEvents es' = s.afterEvents (es ++ es') := by
  simp [State.afterEvents]

theorem State.busStart_eq (s : State) : s.busStart = s.afterEvents (startCell s.config) := by
  simp [State.busStart, State.waitUnit, State.setDat, State.setClk, State.waitUs, State.emit, State.afterEvents,
    startCell]

theorem State.busStop_eq (s : State) : s.busStop = s.afterEvents (stopCell s.config) := by
  simp [State.busStop, State.waitUnit, State.setDat, State.setClk, State.waitUs, State.emit, State.afterEvents,
    stopCell]

theorem State.ackSlot_eq (s : State) : s.ackSlot = s.afterEvents (ackCell s.config) := by
  simp [State.ackSlot, State.waitUnit, State.waitAck, State.setDat, State.setClk, State.waitUs, State.emit,
    State.afterEvents, ackCell]

/-- The bit loop leaves CLK high and DAT at the last bit, and emits the eight bit cells, most significant bit first. -/
theorem State.sendBits_eq (v : Byte) (s : State) :
    State.sendBits 8 v s =
      { s with clk := true, dat := v.getLsbD 0, trace := s.trace ++ (bitsMsbFirst v).flatMap bitCell } := by
  simp [State.sendBits, State.setDat, State.setClk, State.emit, bitsMsbFirst, bitCell, List.range,
    List.range.loop]

theorem State.sendByte_eq (v : Byte) (s : State) : s.sendByte v = s.afterEvents (byteCell s.config v) := by
  rw [State.sendByte, State.ackSlot_eq, State.sendBits_eq]
  simp [State.afterEvents, State.setClk, State.emit, byteCell]

/-- What a run of byte cells leaves; the lines stay as they were when there is no byte. -/
theorem State.sendBytes_afterEvents (p : List Byte) (es : List Event) (s : State) :
    (s.afterEvents es).sendBytes p = s.afterEvents (es ++ p.flatMap (byteCell s.config)) := by
  induction p generalizing es with
  | nil => simp [State.sendBytes]
  | cons b p ih =>
    rw [State.sendBytes, State.sendByte_eq, State.afterEvents_append, ih, List.flatMap_cons, List.append_assoc]
    simp only [State.config, State.afterEvents_cfg]

/-- A frame: its events, both lines low, nothing else. -/
theorem State.sendFrame_eq (p : List Byte) (s : State) : s.sendFrame p = s.afterEvents (frameEvents s.config p) := by
  rw [State.sendFrame, State.busStart_eq, State.sendBytes_afterEvents, State.busStop_eq, State.afterEvents_append,
    List.append_assoc]
  rfl

/-- A transaction is the data frame of its payload. -/
theorem State.writeTransaction_eq (p : List Byte) (s : State) :
    s.writeTransaction p = s.afterEvents (dataFrame s.config p) := State.sendFrame_eq _ s

/-- A transfer is the data frame of the live buffer. -/
theorem State.transfer_eq (s : State) : s.transfer = s.afterEvents (dataFrame s.config s.dmGet) :=
  State.writeTransaction_eq _ s

end Sys2Proof.Machine
end

