-- ==== Sys2Proof/Laws/Decode.lean ====
section
/-! SUPPORT. The fields of a command word put together from its fields, and the value operand both ways. -/
namespace Sys2Proof

variable (op ft : BitVec 4) (rsv : BitVec 8) (val : BitVec 16)

theorem wordOfFields_toNat :
    (wordOfFields op ft rsv val).toNat
      = op.toNat * 2 ^ 28 + ft.toNat * 2 ^ 24 + rsv.toNat * 2 ^ 16 + val.toNat := by
  have h1 := rsv.isLt
  have h2 := val.isLt
  have h3 := ft.isLt
  simp only [wordOfFields, BitVec.toNat_append]
  rw [← Nat.shiftLeft_add_eq_or_of_lt h3, ← Nat.shiftLeft_add_eq_or_of_lt h1, ← Nat.shiftLeft_add_eq_or_of_lt h2]
  simp only [Nat.shiftLeft_eq]
  omega

@[simp] theorem cmdOp_wordOfFields : cmdOp (wordOfFields op ft rsv val) = op := by
  apply BitVec.eq_of_toNat_eq
  have h1 := rsv.isLt
  have h2 := val.isLt
  have h3 := ft.isLt
  have h4 := op.isLt
  simp only [cmdOp, BitVec.extractLsb'_toNat, wordOfFields_toNat, Nat.shiftRight_eq_div_pow]
  omega

@[simp] theorem cmdFt_wordOfFields : cmdFt (wordOfFields op ft rsv val) = ft := by
  apply BitVec.eq_of_toNat_eq
  have h1 := rsv.isLt
  have h2 := val.isLt
  have h3 := ft.isLt
  have h4 := op.isLt
  simp only [cmdFt, BitVec.extractLsb'_toNat, wordOfFields_toNat, Nat.shiftRight_eq_div_pow]
  omega

@[simp] theorem cmdRsv_wordOfFields : cmdRsv (wordOfFields op ft rsv val) = rsv := by
  apply BitVec.eq_of_toNat_eq
  have h1 := rsv.isLt
  have h2 := val.isLt
  have h3 := ft.isLt
  have h4 := op.isLt
  simp only [cmdRsv, BitVec.extractLsb'_toNat, wordOfFields_toNat, Nat.shiftRight_eq_div_pow]
  omega

@[simp] theorem cmdVal_wordOfFields : cmdVal (wordOfFields op ft rsv val) = val := by
  apply BitVec.eq_of_toNat_eq
  have h1 := rsv.isLt
  have h2 := val.isLt
  have h3 := ft.isLt
  have h4 := op.isLt
  simp only [cmdVal, BitVec.extractLsb'_toNat, wordOfFields_toNat, Nat.shiftRight_eq_div_pow]
  omega

/-- A word is its four fields. -/
theorem wordOfFields_fields (w : Word) : wordOfFields (cmdOp w) (cmdFt w) (cmdRsv w) (cmdVal w) = w := by
  apply BitVec.eq_of_toNat_eq
  have h := w.isLt
  rw [wordOfFields_toNat]
  simp only [cmdOp, cmdFt, cmdRsv, cmdVal, BitVec.extractLsb'_toNat, Nat.shiftRight_eq_div_pow]
  omega

/-- The operand bits are all 0 exactly when the three operand fields are. -/
theorem cmdOperands_eq_zero (w : Word) : cmdOperands w = 0#28 ↔ cmdFt w = 0#4 ∧ cmdRsv w = 0#8 ∧ cmdVal w = 0#16 := by
  have h := w.isLt
  simp only [← BitVec.toNat_inj, cmdOperands, cmdFt, cmdRsv, cmdVal, BitVec.extractLsb'_toNat,
    Nat.shiftRight_eq_div_pow, BitVec.toNat_ofNat, Nat.zero_mod]
  omega

theorem valueFits_iff (v : Int) : valueFits v = true ↔ -32768 ≤ v ∧ v ≤ 32767 := by
  simp [valueFits]

end Sys2Proof
end

