-- ==== Sys2Proof/Laws/Fields.lean ====
section
/-! SUPPORT. What the table merges do to each byte, as one read equation per merge. -/
namespace Sys2Proof.Machine

theorem State.readDm_putA {s : State} {i : Nat} (h : i < s.config.n) (k j : Nat) :
    (s.putA i k).readDm j = if j = i then (s.readDm i &&& 0x80) ||| tableA s.config k else s.readDm j :=
  State.readDm_mergeByte h _ _ j

theorem State.readDm_orA {s : State} {i : Nat} (h : i < s.config.n) (k j : Nat) :
    (s.orA i k).readDm j = if j = i then s.readDm i ||| tableA s.config k else s.readDm j :=
  State.readDm_orByte h _ j

@[simp] theorem State.putA_cfg (s : State) (i k : Nat) : (s.putA i k).cfg = s.cfg := rfl

@[simp] theorem State.orA_cfg (s : State) (i k : Nat) : (s.orA i k).cfg = s.cfg := rfl

@[simp] theorem State.putB2_cfg (s : State) (a b c d u : Nat) : (s.putB2 a b c d u).cfg = s.cfg := rfl

theorem State.readDm_putB2 {s : State} {a b c : Nat} (ha : a < s.config.n) (hb : b < s.config.n)
    (hc : c < s.config.n) (hab : a ≠ b) (hac : a ≠ c) (hbc : b ≠ c) (d u j : Nat) :
    (s.putB2 a b c d u).readDm j =
      if j = a then (s.readDm a &&& 0xF0) ||| (tableB s.config (digitIndex d) >>> 4)
      else if j = b then
        (s.readDm b &&& 0x10) ||| middleBits (tableB s.config (digitIndex d)) (tableB s.config (digitIndex u))
      else if j = c then (s.readDm c &&& 0x1F) ||| ((tableB s.config (digitIndex u) &&& 0x07) <<< 5)
      else s.readDm j := by
  let pt := tableB s.config (digitIndex d)
  let pu := tableB s.config (digitIndex u)
  let s₁ := s.mergeByte a 0xF0 (pt >>> 4)
  let s₂ := s₁.mergeByte b 0x10 (middleBits pt pu)
  have h₁ (k : Nat) : s₁.readDm k = if k = a then (s.readDm a &&& 0xF0) ||| (pt >>> 4) else s.readDm k :=
    State.readDm_mergeByte ha _ _ k
  have h₂ (k : Nat) : s₂.readDm k = if k = b then (s₁.readDm b &&& 0x10) ||| middleBits pt pu else s₁.readDm k :=
    State.readDm_mergeByte (s := s₁) hb _ _ k
  have h₃ : (s.putB2 a b c d u).readDm j =
      if j = c then (s₂.readDm c &&& 0x1F) ||| ((pu &&& 0x07) <<< 5) else s₂.readDm j :=
    State.readDm_mergeByte (s := s₂) hc _ _ j
  rw [h₃, h₂, h₂, h₁, h₁, h₁, if_neg hbc.symm, if_neg hac.symm, if_neg hab.symm]
  by_cases ja : j = a
  · subst ja
    rw [if_neg hac, if_neg hab, if_pos rfl, if_pos rfl]
  · by_cases jb : j = b
    · subst jb
      rw [if_neg hbc, if_pos rfl, if_neg ja, if_pos rfl]
    · rw [if_neg jb, if_neg ja, if_neg ja, if_neg jb]

end Sys2Proof.Machine
end

