-- ==== Sys2Proof/Laws/PerInstr.lean ====
section
/-! SUPPORT. The family of per-command statements: the word of a command lies in the opcode-map row of its mnemonic
(30_encoding.md R84). -/
namespace Sys2Proof.Laws.RowWord

/-- The command's word is covered by the row that bears its mnemonic. -/
def Statement (i : Instr) : Prop := ∃ r ∈ opcodeMap, r.mnemonic = i.mnemonic ∧ r.covers (encode i) = true

/-- Under the mask of the `SETF` rows a `SETF` word is its row's pattern. -/
theorem setfWord_masked (ft : BitVec 4) (v : Int) :
    setfWord ft v &&& 0xFFFF0000 = wordOfFields 5#4 ft 0#8 0#16 := by
  have h : (0xFFFF0000 : Word) = (0xF#4 ++ 0xF#4 ++ 0xFF#8) ++ 0x0000#16 := by decide
  rw [setfWord, wordOfFields, wordOfFields, h, BitVec.and_append, BitVec.and_append, BitVec.and_append]
  have hft : ft &&& 0xF#4 = ft := BitVec.and_allOnes
  simp [hft]

/-- A row of the map that bears a command's mnemonic and covers its word. -/
theorem of_row {i : Instr} {r : OpcodeRow} (hr : r ∈ opcodeMap) (hm : r.mnemonic = i.mnemonic)
    (hc : r.covers (encode i) = true) : Statement i := ⟨r, hr, hm, hc⟩

/-- A `SETF` row covers the words of its field type. -/
theorem covers_setfWord (m : String) (pattern : Word) (ft : BitVec 4) (v : Int)
    (h : wordOfFields 5#4 ft 0#8 0#16 = pattern) : OpcodeRow.covers ⟨m, pattern, 0xFFFF0000⟩ (setfWord ft v) = true := by
  simp only [OpcodeRow.covers, setfWord_masked, h, beq_self_eq_true]

theorem init : Statement .init :=
  of_row (r := ⟨"INIT", 0x10000000, 0xFFFFFFFF⟩) (by decide) rfl (by decide)

theorem clr : Statement .clr :=
  of_row (r := ⟨"CLR", 0x20000000, 0xFFFFFFFF⟩) (by decide) rfl (by decide)

theorem fill : Statement .fill :=
  of_row (r := ⟨"FILL", 0x30000000, 0xFFFFFFFF⟩) (by decide) rfl (by decide)

theorem ldef : Statement .ldef :=
  of_row (r := ⟨"LDEF", 0x40000000, 0xFFFFFFFF⟩) (by decide) rfl (by decide)

theorem setfSignal (value : Int) : Statement (.setfSignal value) :=
  of_row (r := ⟨"SETF_SIGNAL", 0x50000000, 0xFFFF0000⟩) (by decide) rfl
    (covers_setfWord _ _ 0x0 value (by decide))

theorem setfBell (value : Int) : Statement (.setfBell value) :=
  of_row (r := ⟨"SETF_BELL", 0x51000000, 0xFFFF0000⟩) (by decide) rfl
    (covers_setfWord _ _ 0x1 value (by decide))

theorem setfHour (value : Int) : Statement (.setfHour value) :=
  of_row (r := ⟨"SETF_HOUR", 0x52000000, 0xFFFF0000⟩) (by decide) rfl
    (covers_setfWord _ _ 0x2 value (by decide))

theorem setfMinute (value : Int) : Statement (.setfMinute value) :=
  of_row (r := ⟨"SETF_MINUTE", 0x53000000, 0xFFFF0000⟩) (by decide) rfl
    (covers_setfWord _ _ 0x3 value (by decide))

theorem setfScore (value : Int) : Statement (.setfScore value) :=
  of_row (r := ⟨"SETF_SCORE", 0x54000000, 0xFFFF0000⟩) (by decide) rfl
    (covers_setfWord _ _ 0x4 value (by decide))

theorem setfBattery (value : Int) : Statement (.setfBattery value) :=
  of_row (r := ⟨"SETF_BATTERY", 0x55000000, 0xFFFF0000⟩) (by decide) rfl
    (covers_setfWord _ _ 0x5 value (by decide))

theorem setfTemp1 (value : Int) : Statement (.setfTemp1 value) :=
  of_row (r := ⟨"SETF_TEMP1", 0x56000000, 0xFFFF0000⟩) (by decide) rfl
    (covers_setfWord _ _ 0x6 value (by decide))

theorem setfTemp2 (value : Int) : Statement (.setfTemp2 value) :=
  of_row (r := ⟨"SETF_TEMP2", 0x57000000, 0xFFFF0000⟩) (by decide) rfl
    (covers_setfWord _ _ 0x7 value (by decide))

theorem setfHumidity (value : Int) : Statement (.setfHumidity value) :=
  of_row (r := ⟨"SETF_HUMIDITY", 0x58000000, 0xFFFF0000⟩) (by decide) rfl
    (covers_setfWord _ _ 0x8 value (by decide))

theorem setfCo2 (value : Int) : Statement (.setfCo2 value) :=
  of_row (r := ⟨"SETF_CO2", 0x59000000, 0xFFFF0000⟩) (by decide) rfl
    (covers_setfWord _ _ 0x9 value (by decide))

theorem setf10 (value : Int) : Statement (.setf10 value) :=
  of_row (r := ⟨"SETF__10", 0x5A000000, 0xFFFF0000⟩) (by decide) rfl
    (covers_setfWord _ _ 0xA value (by decide))

theorem setf11 (value : Int) : Statement (.setf11 value) :=
  of_row (r := ⟨"SETF__11", 0x5B000000, 0xFFFF0000⟩) (by decide) rfl
    (covers_setfWord _ _ 0xB value (by decide))

theorem setf12 (value : Int) : Statement (.setf12 value) :=
  of_row (r := ⟨"SETF__12", 0x5C000000, 0xFFFF0000⟩) (by decide) rfl
    (covers_setfWord _ _ 0xC value (by decide))

theorem setf13 (value : Int) : Statement (.setf13 value) :=
  of_row (r := ⟨"SETF__13", 0x5D000000, 0xFFFF0000⟩) (by decide) rfl
    (covers_setfWord _ _ 0xD value (by decide))

theorem setf14 (value : Int) : Statement (.setf14 value) :=
  of_row (r := ⟨"SETF__14", 0x5E000000, 0xFFFF0000⟩) (by decide) rfl
    (covers_setfWord _ _ 0xE value (by decide))

theorem setf15 (value : Int) : Statement (.setf15 value) :=
  of_row (r := ⟨"SETF__15", 0x5F000000, 0xFFFF0000⟩) (by decide) rfl
    (covers_setfWord _ _ 0xF value (by decide))

end Sys2Proof.Laws.RowWord
end

