-- ==== Sys2Proof/Laws/Step.lean ====
section
/-! SUPPORT. What a step and the shared sequences of a command can do, said once. -/
namespace Sys2Proof.Machine

/-- A `SETF` of a known field either ends with RANGE_ERROR, or merges, transfers and completes. -/
theorem setField_cases (f : Field) (op : Int → State → State) (v : Int) (s : State) :
    (outOfRange f v = true ∧ setField f op v s = .next (s.setResult codeRange))
      ∨ (outOfRange f v = false ∧ setField f op v s = .next ((op v s).transfer.setResult codeOk)) := by
  unfold setField
  cases h : outOfRange f v
  · exact .inr ⟨rfl, rfl⟩
  · exact .inl ⟨rfl, rfl⟩

/-- With a host action pending, a step serves it. -/
theorem step_eq_serve {s : State} {a : HostAction} {rest : List HostAction} (h : s.inbox = a :: rest) :
    step s = serve exec a { s with inbox := rest } := by
  unfold step serveNext
  rw [h]

/-- With none pending, a step changes nothing. -/
theorem step_idle {s : State} (h : s.inbox = []) : step s = .next s := by
  unfold step serveNext
  rw [h]

/-- A write of a word to `CMD` runs the word. -/
theorem step_withCommand (w : Word) (s : State) : step (s.withCommand w) = runWord exec w s := rfl

/-- What a step that answers a state can have done: nothing; a power-on reset; a register read; a write of RESULT; an
illegal word; or a command. `t` is the state with the host action taken. -/
inductive StepCase (s u : State) : Prop where
  | idle (h : u = s)
  | powerOn (t : State) (clk dat : Bool) (ht : t = { s with inbox := t.inbox }) (h : u = t.powerOn clk dat)
  | register (t : State) (r : HostReply) (ht : t = { s with inbox := t.inbox }) (h : u = t.reply r)
  | illegal (t : State) (ht : t = { s with inbox := t.inbox }) (h : u = (t.setResult codeIllegal).reply .written)
  | command (t t' : State) (i : Instr) (ht : t = { s with inbox := t.inbox }) (he : exec i t = .next t')
      (h : u = t'.reply .written)

theorem completeWrite_next {o : Host.Outcome State Fault Refusal} {u : State} (h : completeWrite o = .next u) :
    ∃ t, o = .next t ∧ u = t.reply .written := by
  cases o with
  | next t => exact ⟨t, rfl, by simpa [completeWrite, eq_comm] using h⟩
  | fault f => simp [completeWrite] at h
  | refused r => simp [completeWrite] at h

theorem runWord_cases {w : Word} {t u : State} (h : runWord exec w t = .next u) :
    u = (t.setResult codeIllegal).reply .written ∨ ∃ i t', exec i t = .next t' ∧ u = t'.reply .written := by
  unfold runWord at h
  split at h
  · obtain ⟨t', he, hu⟩ := completeWrite_next h
    exact .inr ⟨_, t', he, hu⟩
  · exact .inl (by simpa [completeWrite, State.raise, eq_comm] using h)

theorem serveWrite_cases {offset width : Nat} {w : Word} {t u : State}
    (h : serveWrite exec offset width w t = .next u) :
    u = t.reply .written ∨ runWord exec w t = .next u := by
  unfold serveWrite at h
  split at h
  · split at h
    · exact .inr h
    · split at h
      · exact .inl (by simpa [completeWrite, eq_comm] using h)
      · cases h
  · cases h

theorem serveRead_cases {offset width : Nat} {t u : State} (h : serveRead offset width t = .next u) :
    ∃ r, u = t.reply r := by
  unfold serveRead at h
  split at h
  · split at h
    · exact ⟨_, by simpa [eq_comm] using h⟩
    · split at h
      · exact ⟨_, by simpa [eq_comm] using h⟩
      · cases h
  · cases h

/-- The inversion of a step. -/
theorem step_cases {s u : State} (h : step s = .next u) : StepCase s u := by
  cases hi : s.inbox with
  | nil => exact .idle (by simpa [step_idle hi, eq_comm] using h)
  | cons a rest =>
    rw [step_eq_serve hi] at h
    have ht : ({ s with inbox := rest } : State) = { s with inbox := rest } := rfl
    cases a with
    | powerOn clk dat => exact .powerOn _ clk dat ht (by simpa [serve, eq_comm] using h)
    | read offset width =>
      obtain ⟨r, hu⟩ := serveRead_cases h
      exact .register _ r ht hu
    | write offset width w =>
      rcases serveWrite_cases h with hu | hw
      · exact .register _ _ ht hu
      · rcases runWord_cases hw with hu | ⟨i, t', he, hu⟩
        · exact .illegal _ ht hu
        · exact .command _ t' i ht he hu

end Sys2Proof.Machine
end

