-- ==== Sys2Proof/Laws/Wave.lean ====
section
/-! SUPPORT. Replaying and observing a trace in two parts. -/
namespace Sys2Proof.Machine

theorem replay_append (c : Config) (l : Lines) (es es' : List Event) :
    replay c l (es ++ es') = replay c (replay c l es) es' := by
  simp [replay]

theorem observe_append (c : Config) (l : Lines) (es es' : List Event) :
    observe c l (es ++ es') = observe c l es ++ observe c (replay c l es) es' := by
  induction es generalizing l with
  | nil => rfl
  | cons e es ih => simp [observe, ih, replay]

end Sys2Proof.Machine
end

