-- ==== Sys2Proof/Tests/Slice0.lean ====
section
/-! SUPPORT. The model's own tests, in the example configuration EX, and one witness for every statement that has
hypotheses. Every expected value is a vector of spec/95_test_vectors.md, a word written out from 30_encoding.md, or a hand
calculation from the cited rule. -/
open Sys2Proof Sys2Proof.Machine
namespace Sys2Proof.Tests

/-- Right after a reset of EX that drew both lines low. -/
def fresh : State := State.afterReset AdmittedConfig.ex false false

/-- "Z" of 95_test_vectors.md section 1: DM all 0x00, latches low, RESULT 0. EX's DEFAULT is 0 but for index 19. -/
def zero : State := { fresh with dm := [(19, 0x00)] }

/-- DM all 0xFF, latches low, RESULT 0: what FILL leaves. -/
def full : State := { fresh with dm := (List.range 26).map fun i => (i, 0xFF) }

/-- `s` with other bytes of DM. -/
def withBytes (m : Memory) (s : State) : State := { s with dm := m }

/-- The state an outcome holds; `s` where it holds none. -/
def outcomeOr (s : State) : Host.Outcome State Fault Refusal → State
  | .next t => t
  | .fault _ => s
  | .refused _ => s

/-- The state after a command. -/
def after (i : Instr) (s : State) : State := outcomeOr s (exec i s)

/-- The state after a step whose host action is `a`. -/
def afterAction (a : HostAction) (s : State) : State := outcomeOr s (step { s with inbox := [a] })

/-- DM and RESULT, what most rows of the vectors give. -/
def shown (s : State) : List Byte × Word := (s.dmGet, s.result)

/-- `n` bytes 0x00. -/
def o (n : Nat) : List Byte := List.replicate n 0x00

/-- `n` bytes 0xFF. -/
def x (n : Nat) : List Byte := List.replicate n 0xFF

/-! The decoder on words written out from the fields of R70: OP, FT, RSV, VAL. -/

theorem test_decode_init : decode 0b00010000000000000000000000000000 = .ok .init := by decide
theorem test_decode_clr : decode 0b00100000000000000000000000000000 = .ok .clr := by decide
theorem test_decode_fill : decode 0b00110000000000000000000000000000 = .ok .fill := by decide
theorem test_decode_ldef : decode 0b01000000000000000000000000000000 = .ok .ldef := by decide
/-- VAL 5. -/
theorem test_decode_setf_signal : decode 0b01010000000000000000000000000101 = .ok (.setfSignal 5) := by decide
/-- VAL 1. -/
theorem test_decode_setf_bell : decode 0b01010001000000000000000000000001 = .ok (.setfBell 1) := by decide
/-- VAL 23 (E11). -/
theorem test_decode_setf_hour : decode 0b01010010000000000000000000010111 = .ok (.setfHour 23) := by decide
/-- VAL 59 (F19). -/
theorem test_decode_setf_minute : decode 0b01010011000000000000000000111011 = .ok (.setfMinute 59) := by decide
/-- VAL 99 (F22). -/
theorem test_decode_setf_score : decode 0b01010100000000000000000001100011 = .ok (.setfScore 99) := by decide
/-- VAL 4 (F28). -/
theorem test_decode_setf_battery : decode 0b01010101000000000000000000000100 = .ok (.setfBattery 4) := by decide
/-- VAL -9 (E14). -/
theorem test_decode_setf_temp1 : decode 0b01010110000000001111111111110111 = .ok (.setfTemp1 (-9)) := by decide
/-- VAL -3 (F38). -/
theorem test_decode_setf_temp2 : decode 0b01010111000000001111111111111101 = .ok (.setfTemp2 (-3)) := by decide
/-- VAL 42 (F40). -/
theorem test_decode_setf_humidity : decode 0b01011000000000000000000000101010 = .ok (.setfHumidity 42) := by decide
/-- VAL 999 (E18). -/
theorem test_decode_setf_co2 : decode 0b01011001000000000000001111100111 = .ok (.setfCo2 999) := by decide
/-- VAL 0 (E20). -/
theorem test_decode_setf_10 : decode 0b01011010000000000000000000000000 = .ok (.setf10 0) := by decide
theorem test_decode_setf_11 : decode 0b01011011000000000000000000000001 = .ok (.setf11 1) := by decide
/-- VAL 0 (P8). -/
theorem test_decode_setf_12 : decode 0b01011100000000000000000000000000 = .ok (.setf12 0) := by decide
theorem test_decode_setf_13 : decode 0b01011101000000000111111111111111 = .ok (.setf13 32767) := by decide
theorem test_decode_setf_14 : decode 0b01011110000000001000000000000000 = .ok (.setf14 (-32768)) := by decide
/-- VAL -1 (E22). -/
theorem test_decode_setf_15 : decode 0b01011111000000001111111111111111 = .ok (.setf15 (-1)) := by decide

/-- E1, E24, E25, E26, X6: the operations that do not exist. -/
theorem test_decode_undefined_op :
    decode 0x00000000 = .error (.undefinedOp 0x0) ∧ decode 0x60000000 = .error (.undefinedOp 0x6)
      ∧ decode 0x70000000 = .error (.undefinedOp 0x7) ∧ decode 0xF0000000 = .error (.undefinedOp 0xF)
      ∧ decode 0xFFFFFFFF = .error (.undefinedOp 0xF) := by decide

/-- E3, E4, E6, E9, X7: a command without operands whose operand bits are not all 0. -/
theorem test_decode_operand_bits :
    decode 0x10000001 = .error (.operandBitsSet 1) ∧ decode 0x11000000 = .error (.operandBitsSet 1)
      ∧ decode 0x20010000 = .error (.operandBitsSet 2) ∧ decode 0x2000FFFF = .error (.operandBitsSet 2)
      ∧ decode 0x4FFFFFFF = .error (.operandBitsSet 4) := by decide

/-- E21, E23, X3: RSV is tested before the field type and the range. -/
theorem test_decode_reserved :
    decode 0x5FFFFFFF = .error (.reservedBitsSet 0xFF) ∧ decode 0x52010000 = .error (.reservedBitsSet 0x01)
      ∧ decode 0x5AFF0000 = .error (.reservedBitsSet 0xFF) := by decide

/-- The encoder on the words of sections 3.2 and 3.5. -/
theorem test_encode :
    encode .init = 0x10000000 ∧ encode .ldef = 0x40000000 ∧ encode (.setfHour 12) = 0x5200000C
      ∧ encode (.setfTemp1 (-9)) = 0x5600FFF7 ∧ encode (.setfCo2 999) = 0x590003E7
      ∧ encode (.setfTemp2 (-10)) = 0x5700FFF6 ∧ encode (.setf15 (-1)) = 0x5F00FFFF := by decide

/-- The table's numbering is the command word's own (R78). -/
theorem test_table_word :
    decodeTableWord 32 0x5600FFF7 = some (.setfTemp1 (-9)) ∧ decodeTableWord 32 0x20010000 = none := by decide

/-- A1. -/
theorem test_sign_extension :
    sext16 0x0000 = 0 ∧ sext16 0x7FFF = 32767 ∧ sext16 0x8000 = -32768 ∧ sext16 0xFFFF = -1 ∧ sext16 0xFFF7 = -9 := by
  decide

/-! WellFormed: one ill-formed term for each check, and what passes beside it. -/

theorem test_value_too_low :
    (Instr.setfHour (-32769)).wellFormed = false ∧ assemble (.setfHour (-32769)) = none
      ∧ (Instr.setfHour (-32768)).wellFormed = true := by decide

theorem test_value_too_high :
    (Instr.setf15 32768).wellFormed = false ∧ assemble (.setf15 32768) = none
      ∧ (Instr.setf15 32767).wellFormed = true := by decide

/-- R7: `N` must be at least 1. -/
theorem test_config_empty : Config.admitted { Config.ex with n := 0 } = false := by decide

/-- R7: bit 7 of a Table A entry must be 0. -/
theorem test_config_table_a :
    Config.admitted { Config.ex with ta := #v[0x40, 0x3F, 0x06, 0x5B, 0x4F, 0x66, 0x6D, 0x7D, 0x07, 0x7F, 0xEF] }
      = false := by decide

/-- R6: `DEFAULT` has `N` bytes. -/
theorem test_config_default : Config.admitted { Config.ex with defaultPattern := o 25 } = false := by decide

/-- R8: an index of `N` or more. -/
theorem test_config_index : Config.admitted { Config.ex with layout := { Layout.ex with humU := 26 } } = false := by
  decide

/-- R8: the three bytes of the hour are distinct. -/
theorem test_config_distinct : Config.admitted { Config.ex with layout := { Layout.ex with hourC := 0 } } = false := by
  decide

/-- R8: a mask has exactly one bit set. -/
theorem test_config_mask :
    Config.admitted { Config.ex with layout := { Layout.ex with bellM := 0x00 } } = false
      ∧ oneBit 0x30 = false ∧ oneBit 0x10 = true := by decide

/-- R8: the masks in one byte are different. -/
theorem test_config_same_mask : Config.admitted { Config.ex with layout := { Layout.ex with sigM2 := 0x01 } } = false := by
  decide

/-- R8: fields do not overlap. Bit 5 of byte 1 belongs to the hour. -/
theorem test_config_overlap : Config.admitted { Config.ex with layout := { Layout.ex with bellM := 0x20 } } = false := by
  decide

/-- EX with the bell at bit 7 of a Table A byte. R8 admits it: its footprints are disjoint. -/
def bellTop : Config := { Config.ex with layout := { Layout.ex with bellB := 10, bellM := 0x80 } }

/-- R8 asks for no reserved top bit (log entry 20); EX reserves it, `bellTop` does not. -/
theorem test_config_top_bit :
    bellTop.admitted = true ∧ bellTop.layout.reservesTopBits = false
      ∧ Layout.reservesTopBits { Layout.ex with sigB4 := 18, sigM4 := 0x80 } = false
      ∧ Layout.reservesTopBits Layout.ex = true := by decide

/-- R153 in that layout: the bell's one bit is set, whatever byte it stands in. -/
theorem test_bell_top :
    ((after (.setfBell 1) (State.afterReset ⟨bellTop, test_config_top_bit.1⟩ false false)).readDm 10) = 0x80 := by
  decide +kernel

/-- Each structural row of R8 refuses its own repetition. -/
theorem test_layout_rows :
    Layout.shaped { Layout.ex with sigB4 := 9 } = false ∧ Layout.shaped { Layout.ex with minB := 3 } = false
      ∧ Layout.shaped { Layout.ex with scoreB := 8 } = false ∧ Layout.shaped { Layout.ex with batB2 := 6 } = false
      ∧ Layout.shaped { Layout.ex with batM1 := 0x0C } = false ∧ Layout.shaped { Layout.ex with t1U := 10 } = false
      ∧ Layout.shaped { Layout.ex with t2U := 12 } = false ∧ Layout.shaped { Layout.ex with humU := 14 } = false
      ∧ Layout.shaped { Layout.ex with co2U := 16 } = false ∧ Layout.shaped { Layout.ex with sigM5 := 0x00 } = false := by
  decide

/-- The memory's canonical form refuses an order, a repetition, an index of `N` or more, and a reset byte. -/
theorem test_memory_form :
    Memory.wf Config.ex [(3, 1), (2, 1)] = false ∧ Memory.wf Config.ex [(3, 1), (3, 2)] = false
      ∧ Memory.wf Config.ex [(26, 1)] = false ∧ Memory.wf Config.ex [(19, 0xA5)] = false
      ∧ Memory.wf Config.ex [(2, 1), (19, 0)] = true := by decide

/-! Memory and merges (section 3.3). -/

/-- M1 to M4, on byte 3 of Z. -/
theorem test_masked_writes :
    ((withBytes [(3, 0x5C)] zero).mergeByte 3 0xF0 0x0A).readDm 3 = 0x5A
      ∧ ((withBytes [(3, 0xFF)] zero).mergeByte 3 0x00 0x00).readDm 3 = 0x00
      ∧ ((withBytes [(3, 0x81)] zero).orByte 3 0x06).readDm 3 = 0x87
      ∧ ((withBytes [(3, 0x3C)] zero).orByte 3 0x00).readDm 3 = 0x3C := by decide

/-- Writing the reset byte removes the entry, so that equal memories are equal data. -/
theorem test_write_canonical :
    Memory.write Config.ex 3 0x00 [(2, 1), (3, 7)] = [(2, 1)] ∧ Memory.write Config.ex 3 0x08 [(2, 1), (4, 7)]
      = [(2, 1), (3, 8), (4, 7)] ∧ Memory.write Config.ex 26 0x08 [] = [] := by decide

/-- M5 to M7. -/
theorem test_table_a_merges :
    ((withBytes [(10, 0x80)] zero).putA 10 (digitIndex 8)).readDm 10 = 0xFF
      ∧ ((withBytes [(10, 0x7F)] zero).putA 10 blankIndex).readDm 10 = 0x40
      ∧ ((withBytes [(10, 0x79)] zero).orA 10 (digitIndex 1)).readDm 10 = 0x7F := by decide

/-- M8 to M11, from zeros. -/
theorem test_table_b_merge :
    ((zero.putB2 0 1 2 0 0).dmGet.take 3, (zero.putB2 0 1 2 1 2).dmGet.take 3, (zero.putB2 0 1 2 2 3).dmGet.take 3,
        (zero.putB2 0 1 2 9 9).dmGet.take 3)
      = ([0x07, 0xE7, 0xE0], [0x00, 0xCB, 0x60], [0x0B, 0x69, 0xE0], [0x0D, 0xED, 0xE0]) := by decide

/-- M12 and M13: the bits a digit pair keeps. -/
theorem test_table_b_keeps :
    (full.putB2 0 1 2 0 0).dmGet.take 3 = [0xF7, 0xF7, 0xFF]
      ∧ ((withBytes [(0, 0xF0), (1, 0x10), (2, 0x1F)] zero).putB2 0 1 2 5 9).dmGet.take 3 = [0xFD, 0xBD, 0xFF] := by
  decide

/-- A2, A3, A5. -/
theorem test_decimal :
    [0, 7, 10, 99].map decompose2 = [(0, 0), (0, 7), (1, 0), (9, 9)]
      ∧ [0, 5, 40, 123, 999].map decompose3 = [(0, 0, 0), (0, 0, 5), (0, 4, 0), (1, 2, 3), (9, 9, 9)]
      ∧ digitIndex 0 = 1 ∧ digitIndex 9 = 10 := by decide

/-! Bus (section 3.1). -/

/-- B1: the events of a start. -/
theorem test_bus_start : zero.busStart.trace =
    [.setDat true, .waitUs 3, .setClk true, .waitUs 3, .setDat false, .waitUs 3, .setClk false, .waitUs 3] := by decide

/-- B5: the events of a stop. -/
theorem test_bus_stop : zero.busStop.trace =
    [.setClk true, .waitUs 3, .setDat false, .waitUs 3, .setDat true, .waitUs 3, .setDat false, .setClk false] := by
  decide

/-- B11: the events of the byte 0xA5. -/
theorem test_send_byte : (zero.sendByte 0xA5).trace =
    [.setClk false, .setClk false, .setDat true, .setClk true, .setClk false, .setDat false, .setClk true,
     .setClk false, .setDat true, .setClk true, .setClk false, .setDat false, .setClk true, .setClk false,
     .setDat false, .setClk true, .setClk false, .setDat true, .setClk true, .setClk false, .setDat false,
     .setClk true, .setClk false, .setDat true, .setClk true]
      ++ [.setClk false, .waitUs 3, .setDat false, .waitUs 3, .setClk true, .waitUs 6, .setClk false, .waitUs 3] := by
  decide

/-- B14: the byte 0x00 from both lines high shows no start or stop condition. -/
theorem test_send_byte_from_high :
    observe Config.ex ⟨true, true⟩ (byteCell Config.ex 0x00) = .fall :: byteSights 0x00 := by decide

/-- B15: the transaction without payload has 82 events and waits 51 microseconds. -/
theorem test_empty_transaction :
    (zero.writeTransaction []).trace.length = 82 ∧ waitTotal (zero.writeTransaction []).trace = 51 := by decide

/-- B3: entered with CLK high and DAT low, a start makes a stop condition first. -/
theorem test_start_from_high_low :
    observe Config.ex ⟨true, false⟩ (startCell Config.ex) = [.stop, .start, .fall] := by decide

/-- R31: the waveform holds a level pair for each event that changes one. -/
theorem test_waveform : waveform Config.ex ⟨false, false⟩ (startCell Config.ex) =
    [⟨false, true⟩, ⟨true, true⟩, ⟨true, false⟩, ⟨false, false⟩] := by decide

/-- R12: the shorthand of the five kinds of event. -/
theorem test_shorthand :
    [Event.setClk false, .setDat true, .waitUs 3, .waitMs 10, .setup].map Event.shorthand
      = ["C0", "D1", "W3", "M10", "S"] := by decide

/-- R79: the assembler's text. -/
theorem test_text :
    [Instr.init, .setfTemp1 (-9), .setf12 0].map Instr.text = ["INIT", "SETF TEMP1, -9", "SETF #12, 0"] := by decide

/-! The commands (sections 3.4 to 3.7): at most two rows each. -/

/-- F6. -/
theorem test_signal_five :
    shown (after (.setfSignal 5) zero) = (o 2 ++ [0x01] ++ o 2 ++ [0x01] ++ o 3 ++ [0x07] ++ o 16, 0) := by decide +kernel
/-- F8. -/
theorem test_signal_zero_full :
    shown (after (.setfSignal 0) full) = (x 2 ++ [0xFE] ++ x 2 ++ [0xFE] ++ x 3 ++ [0xF8] ++ x 16, 0) := by decide +kernel
/-- F9. -/
theorem test_bell_on : shown (after (.setfBell 1) zero) = (o 1 ++ [0x10] ++ o 24, 0) := by decide +kernel
/-- F10. -/
theorem test_bell_off_full : shown (after (.setfBell 0) full) = (x 1 ++ [0xEF] ++ x 24, 0) := by decide +kernel
/-- F15. -/
theorem test_hour : shown (after (.setfHour 23) zero) = ([0x0B, 0x69, 0xE0] ++ o 23, 0) := by decide +kernel
/-- F16. -/
theorem test_hour_full : shown (after (.setfHour 23) full) = ([0xFB, 0x79] ++ x 24, 0) := by decide +kernel
/-- F18. -/
theorem test_minute : shown (after (.setfMinute 34) zero) = (o 3 ++ [0x09, 0xEC, 0xC0] ++ o 20, 0) := by decide +kernel
/-- F19. -/
theorem test_minute_last : shown (after (.setfMinute 59) zero) = (o 3 ++ [0x0D, 0xAD, 0xE0] ++ o 20, 0) := by decide +kernel
/-- F21. -/
theorem test_score : shown (after (.setfScore 42) zero) = (o 6 ++ [0x0C, 0xCB, 0x60] ++ o 17, 0) := by decide +kernel
/-- F23. -/
theorem test_score_full : shown (after (.setfScore 99) full) = (x 6 ++ [0xFD, 0xFD] ++ x 18, 0) := by decide +kernel
/-- F28. -/
theorem test_battery_four : shown (after (.setfBattery 4) zero) = (o 6 ++ [0x10, 0x00, 0x0D] ++ o 17, 0) := by decide +kernel
/-- F30. -/
theorem test_battery_zero_full : shown (after (.setfBattery 0) full) = (x 6 ++ [0xEF, 0xFF, 0xF0] ++ x 17, 0) := by decide +kernel
/-- F31, property P5. -/
theorem test_temp1_negative : shown (after (.setfTemp1 (-9)) zero) = (o 10 ++ [0x40, 0x6F] ++ o 14, 0) := by decide +kernel
/-- F34. -/
theorem test_temp1_seven : shown (after (.setfTemp1 7) zero) = (o 10 ++ [0x3F, 0x07] ++ o 14, 0) := by decide +kernel
/-- F37. -/
theorem test_temp2 : shown (after (.setfTemp2 25) zero) = (o 12 ++ [0x5B, 0x6D] ++ o 12, 0) := by decide +kernel
/-- F38. -/
theorem test_temp2_negative : shown (after (.setfTemp2 (-3)) zero) = (o 12 ++ [0x40, 0x4F] ++ o 12, 0) := by decide +kernel
/-- F40. -/
theorem test_humidity : shown (after (.setfHumidity 42) zero) = (o 14 ++ [0x66, 0x5B] ++ o 10, 0) := by decide +kernel
/-- F41. -/
theorem test_humidity_full : shown (after (.setfHumidity 99) full) = (x 14 ++ [0xEF, 0xEF] ++ x 10, 0) := by decide +kernel
/-- Property P6: from 80 01 FF. -/
theorem test_co2_merges :
    (after (.setfCo2 123) (withBytes [(16, 0x80), (17, 0x01), (18, 0xFF), (19, 0x00)] zero)).dmGet
      = o 16 ++ [0x86, 0x5B, 0xCF] ++ o 7 := by decide +kernel
/-- F46: the value 5 over the bytes that 123 leaves. -/
theorem test_co2_carries_over :
    (after (.setfCo2 5) (withBytes [(16, 0x06), (17, 0x5B), (18, 0x4F), (19, 0x00)] zero)).dmGet
      = o 16 ++ [0x3F, 0x7F, 0x6D] ++ o 7 := by decide +kernel
/-- K1: the first events of INIT, their number, and that DM is untouched. -/
theorem test_init :
    (after .init fresh).trace.take 4 = [.setup, .waitMs 10, .setDat true, .waitUs 3]
      ∧ (after .init fresh).trace.length = 183 ∧ waitTotal (after .init fresh).trace = 96
      ∧ (after .init fresh).dm = [] := by decide +kernel
/-- K3. -/
theorem test_clr : shown (after .clr full) = (o 26, 0) := by decide +kernel
/-- K4. -/
theorem test_fill : shown (after .fill zero) = (x 26, 0) := by decide +kernel
/-- K5: DM equal to DEFAULT lists nothing. -/
theorem test_ldef : shown (after .ldef full) = (o 19 ++ [0xA5] ++ o 6, 0) ∧ (after .ldef full).dm = [] := by decide +kernel
/-- E20, X4. -/
theorem test_unknown_10 : exec (.setf10 (-1)) zero = .next { zero with result := 2 } := rfl
theorem test_unknown_11 : exec (.setf11 1) zero = .next { zero with result := 2 } := rfl
/-- P8. -/
theorem test_unknown_12 : exec (.setf12 0) zero = .next { zero with result := 2 } := rfl
theorem test_unknown_13 : exec (.setf13 32767) zero = .next { zero with result := 2 } := rfl
theorem test_unknown_14 : exec (.setf14 (-32768)) zero = .next { zero with result := 2 } := rfl
/-- E22. -/
theorem test_unknown_15 : exec (.setf15 (-1)) zero = .next { zero with result := 2 } := rfl

/-- K4, F6: the frame of a transfer is `FRAME(DM after)`, 940 events. -/
theorem test_transfer_frame :
    zero.transfer.trace = frameEvents Config.ex (0x5A :: 0x3C :: o 26) := by
  rw [State.transfer_eq]
  have h : zero.dmGet = o 26 := by decide
  rw [h]
  rfl

/-- Section 3.5: one below, the low end, the high end, one above, for every field. -/
theorem test_range_boundaries :
    Field.all.map (fun f => ((fieldRange f).1 - 1, (fieldRange f).1, (fieldRange f).2, (fieldRange f).2 + 1))
      = [(-1, 0, 5, 6), (-1, 0, 1, 2), (-1, 0, 23, 24), (-1, 0, 59, 60), (-1, 0, 99, 100), (-1, 0, 4, 5),
         (-10, -9, 99, 100), (-10, -9, 99, 100), (-1, 0, 99, 100), (-1, 0, 999, 1000)]
      ∧ Field.all.all (fun f => outOfRange f ((fieldRange f).1 - 1) && !outOfRange f (fieldRange f).1
          && !outOfRange f (fieldRange f).2 && outOfRange f ((fieldRange f).2 + 1)) = true := by decide

/-- What a word leaves of Z: RESULT, and whether anything else but the reply changed. -/
def codeOf (w : Word) : Word × Bool :=
  let t := afterAction (.write 0 32 w) zero
  (t.result, decide (t = { zero with result := t.result, replies := [.written] }))

/-- X1 to X7 and E13, E16: the result code of each word, and that nothing else changes. -/
theorem test_error_order :
    [0x52000018, 0x5A000063, 0x5AFF0000, 0x5A00FFFF, 0x5201FFFF, 0x70000000, 0x2000FFFF, 0x5200FFFF, 0x56008000].map
        codeOf
      = [(1, true), (2, true), (3, true), (2, true), (3, true), (3, true), (3, true), (1, true), (1, true)] := by decide

/-- R24, R25, R54: what the four kinds of register access give back. -/
theorem test_register_accesses :
    (afterAction (.read 4 32) { zero with result := 2 }).replies = [.value 2]
      ∧ (afterAction (.read 0 32) { zero with result := 2 }).replies = [.value 0]
      ∧ (afterAction (.write 4 32 1) { zero with result := 2 }).result = 2
      ∧ (afterAction (.write 0 32 0x52000018) { zero with result := 2 }).result = 1 := by decide

/-- R52: a narrow access and an access elsewhere are refused. -/
theorem test_refused_accesses :
    step { zero with inbox := [.read 4 8] } = .refused (.hostAccess 4 8)
      ∧ step { zero with inbox := [.write 8 32 0x10000000] } = .refused (.hostAccess 8 32) := ⟨rfl, rfl⟩

/-- R220: a power-on reset after FILL. -/
theorem test_power_on :
    afterAction (.powerOn true false) { full with result := 3, trace := [.setup] }
      = { fresh with clk := true, dat := false } := by decide

/-- The interface places a word where the next step takes it, and that step runs it: from the state after reset, whatever
the installed configuration is. -/
theorem test_fetch_word :
    ∃ t, step (State.reset.withFetchWord 32 0x52000018) = .next { t with replies := [.written] }
      ∧ exec (.setfHour 24) State.reset = .next t := ⟨{ State.reset with result := 1 }, rfl, rfl⟩

/-! Witnesses: what meets the hypotheses of each statement, clause by clause, at its boundary values. -/

theorem witness_decodeOfEncode :
    (Instr.setfTemp1 (-9)).wellFormed = true ∧ (Instr.setf10 (-32768)).wellFormed = true
      ∧ (Instr.setfCo2 32767).wellFormed = true ∧ Instr.init.wellFormed = true := by decide

theorem witness_encodeOfDecode : decode 0x5600FFF7 = .ok (.setfTemp1 (-9)) := by decide

theorem witness_illegalWords :
    illegalWord 0x00000000 ∧ illegalWord 0x60000000 ∧ illegalWord 0x10000001 ∧ illegalWord 0x48000000
      ∧ illegalWord 0x50010000 ∧ ¬illegalWord 0x5A00FFFF := by
  unfold illegalWord
  decide

theorem witness_unknownWords :
    ((0x5A000000 : Word) >>> 28 = 5#32 ∧ (0x5A000000 : Word) &&& 0x00FF0000#32 = 0#32
        ∧ 10 ≤ (cmdFt 0x5A000000).toNat)
      ∧ (0x5F00FFFF : Word) >>> 28 = 5#32 ∧ (0x5F00FFFF : Word) &&& 0x00FF0000#32 = 0#32
        ∧ 10 ≤ (cmdFt 0x5F00FFFF).toNat := by decide

theorem witness_opcodeMap :
    (⟨"SETF_CO2", 0x59000000, 0xFFFF0000⟩ ∈ opcodeMap
        ∧ OpcodeRow.covers ⟨"SETF_CO2", 0x59000000, 0xFFFF0000⟩ 0x590003E7 = true
        ∧ decode 0x590003E7 = .ok (.setfCo2 999))
      ∧ ∀ r ∈ opcodeMap, r.covers 0x20000001 = false := by decide

theorem witness_assembler :
    (-32768 ≤ (-32768 : Int) ∧ (-32768 : Int) ≤ 32767) ∧ (-32768 ≤ (32767 : Int) ∧ (32767 : Int) ≤ 32767)
      ∧ (-32769 : Int) < -32768 ∧ (32767 : Int) < 32768 := by decide

theorem witness_stepRuns :
    (zero.withCommand 0x50000005).inbox = .write 0 32 0x50000005 :: [] ∧ decode 0x50000005 = .ok (.setfSignal 5) := by
  decide

theorem witness_waits : zero.inbox = [] := rfl

theorem witness_accesses :
    HostAction.allowed (.write 0 32 7) = true ∧ HostAction.allowed (.read 4 32) = true
      ∧ HostAction.allowed (.powerOn true false) = true ∧ HostAction.allowed (.read 3 32) = false
      ∧ HostAction.allowed (.read 8 32) = false ∧ HostAction.allowed (.write 0 31 7) = false
      ∧ { zero with inbox := [.read 3 32] }.inbox = .read 3 32 :: [] := by decide

theorem witness_registerReads :
    { zero with inbox := [.read 0 32] }.inbox = .read 0 32 :: []
      ∧ { zero with inbox := [.read 4 32] }.inbox = .read 4 32 :: []
      ∧ { zero with inbox := [.write 4 32 9] }.inbox = .write 4 32 9 :: [] := by decide

theorem witness_powerOn : { zero with inbox := [.powerOn true false] }.inbox = .powerOn true false :: []
    ∧ 0 < zero.config.n ∧ 25 < zero.config.n := by decide

/-- Every admitted configuration has a byte 0, the one of the state after reset too. -/
theorem witness_resetState : 0 < State.reset.config.n := by
  have h := State.reset.cfg.ok
  simp only [Config.admitted, Bool.and_eq_true, decide_eq_true_eq] at h
  exact h.1.1.1.1.1

theorem witness_invariant : zero.Inv ∧ step (zero.withCommand 0x52000018)
    = .next { zero with result := 1, replies := [.written] } := ⟨⟨by decide, by decide⟩, rfl⟩

theorem witness_resultCode_illegal : illegalWord 0x52010000 ∧ illegalWord 0x2000FFFF := by
  unfold illegalWord
  decide

theorem witness_resultCode_unknown : ¬illegalWord 0x5A000063 ∧ (0x5A000063 : Word) >>> 28 = 5#32
    ∧ 10 ≤ (cmdFt 0x5A000063).toNat := by
  unfold illegalWord
  decide

theorem witness_resultCode_field : ¬illegalWord 0x52000017 ∧ (0x52000017 : Word) >>> 28 = 5#32
    ∧ (cmdFt 0x52000017).toNat = Field.all.idxOf Field.hour ∧ fieldAdmits .hour (cmdVal 0x52000017).toInt
    ∧ ¬fieldAdmits .hour (cmdVal 0x52000018).toInt := by
  unfold illegalWord fieldAdmits
  decide

theorem witness_resultCode_chip : ¬illegalWord 0x40000000 ∧ (0x40000000 : Word) >>> 28 ≠ 5#32 := by
  unfold illegalWord
  decide

theorem witness_error : step (zero.withCommand 0x52000018) = .next { zero with result := 1, replies := [.written] }
    ∧ { zero with result := 1, replies := [.written] }.result ≠ 0 := ⟨rfl, by decide⟩

/-- The four boundary values of every field (section 3.5). -/
theorem witness_fieldAdmits :
    (fieldAdmits .signal 0 ∧ fieldAdmits .signal 5 ∧ ¬fieldAdmits .signal (-1) ∧ ¬fieldAdmits .signal 6)
      ∧ (fieldAdmits .temp1 (-9) ∧ fieldAdmits .temp1 99 ∧ ¬fieldAdmits .temp1 (-10) ∧ ¬fieldAdmits .temp1 100)
      ∧ fieldAdmits .co2 0 ∧ fieldAdmits .co2 999 ∧ ¬fieldAdmits .co2 (-1) ∧ ¬fieldAdmits .co2 1000 := by
  unfold fieldAdmits
  decide

theorem witness_signal : (0 ≤ (0 : Int) ∧ (0 : Int) ≤ 5) ∧ (0 ≤ (5 : Int) ∧ (5 : Int) ≤ 5)
    ∧ ((-1 : Int) < 0 ∨ 5 < (-1 : Int)) ∧ ((6 : Int) < 0 ∨ 5 < (6 : Int)) := by decide
theorem witness_bell : ((0 : Int) = 0 ∨ (0 : Int) = 1) ∧ ((1 : Int) = 0 ∨ (1 : Int) = 1)
    ∧ ((-1 : Int) < 0 ∨ 1 < (-1 : Int)) ∧ ((2 : Int) < 0 ∨ 1 < (2 : Int)) := by decide
theorem witness_hour : (0 ≤ (0 : Int) ∧ (0 : Int) ≤ 23) ∧ (0 ≤ (23 : Int) ∧ (23 : Int) ≤ 23)
    ∧ ((-1 : Int) < 0 ∨ 23 < (-1 : Int)) ∧ ((24 : Int) < 0 ∨ 23 < (24 : Int)) := by decide
theorem witness_minute : (0 ≤ (0 : Int) ∧ (0 : Int) ≤ 59) ∧ (0 ≤ (59 : Int) ∧ (59 : Int) ≤ 59)
    ∧ ((-1 : Int) < 0 ∨ 59 < (-1 : Int)) ∧ ((60 : Int) < 0 ∨ 59 < (60 : Int)) := by decide
/-- Score and humidity have the same range. -/
theorem witness_score_humidity : (0 ≤ (0 : Int) ∧ (0 : Int) ≤ 99) ∧ (0 ≤ (99 : Int) ∧ (99 : Int) ≤ 99)
    ∧ ((-1 : Int) < 0 ∨ 99 < (-1 : Int)) ∧ ((100 : Int) < 0 ∨ 99 < (100 : Int)) := by decide
theorem witness_battery : (0 ≤ (0 : Int) ∧ (0 : Int) ≤ 4) ∧ (0 ≤ (4 : Int) ∧ (4 : Int) ≤ 4)
    ∧ ((-1 : Int) < 0 ∨ 4 < (-1 : Int)) ∧ ((5 : Int) < 0 ∨ 4 < (5 : Int)) := by decide
/-- The two temperature channels have the same three clauses; they meet at 0, which falls under one of them. -/
theorem witness_temp : (-9 ≤ (-9 : Int) ∧ (-9 : Int) < 0) ∧ (-9 ≤ (-1 : Int) ∧ (-1 : Int) < 0)
    ∧ (0 ≤ (0 : Int) ∧ (0 : Int) ≤ 99) ∧ (0 ≤ (99 : Int) ∧ (99 : Int) ≤ 99)
    ∧ ((-10 : Int) < -9 ∨ 99 < (-10 : Int)) ∧ ((100 : Int) < -9 ∨ 99 < (100 : Int))
    ∧ ¬(-9 ≤ (0 : Int) ∧ (0 : Int) < 0) := by decide
theorem witness_co2 : (0 ≤ (0 : Int) ∧ (0 : Int) ≤ 999) ∧ (0 ≤ (999 : Int) ∧ (999 : Int) ≤ 999)
    ∧ ((-1 : Int) < 0 ∨ 999 < (-1 : Int)) ∧ ((1000 : Int) < 0 ∨ 999 < (1000 : Int)) := by decide

/-- The byte indices a whole-buffer command writes: the first and the last of EX. -/
theorem witness_wholeBuffer : 0 < zero.config.n ∧ 25 < zero.config.n
    ∧ Instr.ldef ∈ [Instr.init, Instr.clr, Instr.fill, Instr.ldef] := by decide

theorem witness_atRest : zero.AtRest := ⟨rfl, rfl⟩

theorem witness_next (i : Instr) (h : i ∈ [Instr.init, .clr, .fill, .ldef, .setfHour 23, .setfHour 24, .setf10 3]) :
    exec i zero = .next (after i zero) := by
  simp only [List.mem_cons, List.not_mem_nil, or_false] at h
  rcases h with rfl | rfl | rfl | rfl | rfl | rfl | rfl <;> rfl

theorem witness_fieldsDoNotInterfere :
    exec (setfCommand .hour 23) zero = .next (after (.setfHour 23) zero) ∧ Field.bell ≠ Field.hour := ⟨rfl, by decide⟩

theorem witness_fieldBits :
    Field.hour ≠ Field.co2 ∧ fieldAdmits .hour 23 ∧ zero.cfg = full.cfg
      ∧ exec (setfCommand .hour 23) zero = .next (after (.setfHour 23) zero)
      ∧ exec (setfCommand .hour 23) full = .next (after (.setfHour 23) full) := by
  refine ⟨by decide, ?_, rfl, rfl, rfl⟩
  unfold fieldAdmits
  decide

theorem witness_tableAFields :
    Field.co2 ∈ [Field.temp1, Field.temp2, Field.humidity, Field.co2]
      ∧ 10 ∈ zero.config.layout.tableABytes ∧ 18 ∈ zero.config.layout.tableABytes
      ∧ Instr.setfBell 1 ∉ [Instr.clr, Instr.fill, Instr.ldef]
      ∧ exec (.setfBell 1) full = .next (after (.setfBell 1) full)
      ∧ full.config.layout.reservesTopBits = true
      ∧ (∀ f v, Instr.setfBell 1 = setfCommand f v → (full.config.layout.footprintAt f 10).getLsbD 7 = false)
      ∧ exec .clr full = .next (after .clr full) ∧ exec .fill full = .next (after .fill full)
      ∧ exec .ldef full = .next (after .ldef full)
      ∧ exec (setfCommand .co2 123) full = .next (after (.setfCo2 123) full) :=
  ⟨by decide, by decide, by decide, by decide, rfl, by decide, fun f _ _ => by cases f <;> decide, rfl, rfl, rfl, rfl⟩

theorem witness_co2CarriesOver : fieldAdmits .co2 0 ∧ fieldAdmits .co2 123 ∧ fieldAdmits .co2 999 := by
  unfold fieldAdmits
  decide

/-- Byte 19 lies in no footprint of EX. -/
theorem witness_fillLeaves :
    exec .fill zero = .next (after .fill zero) ∧ full.Lit ∧ full.config.layout.reservesTopBits = true ∧ Instr.setfCo2 5 ∉ [Instr.clr, Instr.ldef]
      ∧ exec (.setfCo2 5) full = .next (after (.setfCo2 5) full)
      ∧ exec (setfCommand .bell 0) full = .next (after (.setfBell 0) full)
      ∧ 19 < zero.config.n ∧ ∀ g, (zero.config.layout.footprintAt g 19).getLsbD 7 = false := by
  have h : ∀ i < 26, ∀ k < 8, (full.readDm i).getLsbD k = true := by decide
  refine ⟨rfl, ⟨by decide, by decide, fun i hi k hk _ => h i hi k hk⟩, by decide, by decide, rfl, rfl, by decide, fun g => ?_⟩
  cases g <;> decide

theorem witness_maskedWrites : 0 < zero.config.n ∧ 25 < zero.config.n ∧ (0x0A : Byte) &&& 0xF0 = 0 ∧ 0 ≤ 10 ∧ 10 ≤ 10 := by
  decide

theorem witness_tableA : 18 < zero.config.n ∧ 0 ≤ 10 ∧ 10 ≤ 10 := by decide

theorem witness_tableB : (0 < zero.config.n ∧ 1 < zero.config.n ∧ 2 < zero.config.n)
    ∧ (0 ≠ 1 ∧ 0 ≠ 2 ∧ 1 ≠ 2) ∧ 0 ≤ 9 ∧ 9 ≤ 9 := by decide

theorem witness_wholeBufferStates : zero.dmFillAll ∈ [zero.dmClearAll, zero.dmFillAll, zero.dmInitDefault] :=
  List.mem_cons_of_mem _ List.mem_cons_self

theorem witness_decimal : 0 ≤ 99 ∧ 99 ≤ 99 ∧ 999 ≤ 999 := by decide

theorem witness_twosComplement : (-32768 ≤ (-32768 : Int) ∧ (-32768 : Int) ≤ 32767)
    ∧ -32768 ≤ (32767 : Int) ∧ (32767 : Int) ≤ 32767 := by decide

/-- A configuration that R7 refuses: no byte, or a Table A entry with bit 7 set. -/
theorem witness_refusedConfig :
    ¬(1 ≤ Config.n { Config.ex with n := 0 })
      ∧ ¬∀ k, k ≤ 10 → (tableA { Config.ex with ta := Vector.replicate 11 0x80 } k).getLsbD 7 = false := by decide

/-- EX meets every condition of admission. -/
theorem witness_admission :
    1 ≤ Config.ex.n ∧ (∀ k, k ≤ 10 → (tableA Config.ex k).getLsbD 7 = false)
      ∧ Config.ex.defaultPattern.length = Config.ex.n ∧ Config.ex.layout.shaped = true
      ∧ (∀ f, ∀ e ∈ Config.ex.layout.footprint f, e.1 < Config.ex.n)
      ∧ ∀ f g, g ≠ f → ∀ i, Config.ex.layout.footprintAt f i &&& Config.ex.layout.footprintAt g i = 0 := by
  have below : ∀ f, ∀ e ∈ Config.ex.layout.footprint f, e.1 < Config.ex.n := by
    intro f
    cases f <;> decide
  have inside : ∀ i < 26, ∀ f ∈ Field.all, ∀ g ∈ Field.all,
      g ≠ f → Config.ex.layout.footprintAt f i &&& Config.ex.layout.footprintAt g i = 0 := by decide +kernel
  have outside : ∀ (l : List (Nat × Byte)) (i : Nat), (∀ e ∈ l, e.1 < 26) → ¬i < 26 → maskAt i l = 0 := by
    intro l i hl hi
    induction l with
    | nil => rfl
    | cons e l ih =>
      have he := hl e List.mem_cons_self
      rw [maskAt, if_neg (by omega), ih fun e' h => hl e' (List.mem_cons_of_mem _ h)]
  refine ⟨by decide, by decide, by decide, by decide, below, fun f g hg i => ?_⟩
  by_cases hi : i < 26
  · exact inside i hi f (by cases f <;> decide) g (by cases g <;> decide) hg
  · rw [Layout.footprintAt, outside _ i (below f) hi]
    exact BitVec.zero_and

theorem witness_layout : (9, 0x01 ||| 0x02 ||| 0x04) ∈ zero.config.layout.footprint .signal
    ∧ Field.bell ≠ Field.signal := by decide

end Sys2Proof.Tests
end

section
/-! PROOFS. What admission of a configuration means, condition by condition (00_scope.md R7, R8), and from it O59 and
O60. -/
namespace Sys2Proof

@[simp] theorem Field.mem_all (f : Field) : f ∈ Field.all := by cases f <;> decide

/-- A check over every listed field is a check over every field (R72). -/
@[simp] theorem Field.all_all_iff (p : Field → Bool) : Field.all.all p = true ↔ ∀ f, p f = true := by
  simp [List.all_eq_true]

theorem maskAt_eq_zero {i : Nat} {entries : List (Nat × Byte)} (h : ∀ e ∈ entries, e.1 ≠ i) :
    maskAt i entries = 0 := by
  induction entries with
  | nil => rfl
  | cons e entries ih =>
    obtain ⟨hne, hrest⟩ := List.forall_mem_cons.mp h
    rw [maskAt, if_neg hne.symm, ih hrest]

theorem Layout.within_iff {l : Layout} {n : Nat} :
    l.within n = true ↔ ∀ f, ∀ e ∈ l.footprint f, e.1 < n := by
  simp [Layout.within, List.all_eq_true]

/-- A layout within `n` has no footprint bit at a byte of index `n` or more. -/
theorem Layout.footprintAt_eq_zero {l : Layout} {n i : Nat} (hl : l.within n = true) (hi : n ≤ i) (f : Field) :
    l.footprintAt f i = 0 :=
  maskAt_eq_zero fun e he => ((Layout.within_iff.mp hl f e he).trans_le hi).ne

/-- For a layout within `n`, disjoint footprints below `n` are disjoint footprints at every byte. -/
theorem Layout.disjointFields_iff {l : Layout} {n : Nat} (hl : l.within n = true) :
    l.disjointFields n = true ↔ ∀ f g, g ≠ f → ∀ i, l.footprintAt f i &&& l.footprintAt g i = 0 := by
  have below : l.disjointFields n = true ↔
      ∀ i < n, ∀ f g, f = g ∨ l.footprintAt f i &&& l.footprintAt g i = 0 := by
    simp [Layout.disjointFields, List.all_eq_true]
  rw [below]
  constructor
  · intro h f g hne i
    rcases lt_or_ge i n with hi | hi
    · exact (h i hi f g).resolve_left hne.symm
    · rw [footprintAt_eq_zero hl hi]
      exact BitVec.zero_and
  · intro h i _ f g
    exact or_iff_not_imp_left.mpr fun hne => h f g (Ne.symm hne) i

namespace Machine

/-- Table A has the eleven entries 0 to 10, so R7's condition on its bytes is one on `tableA` up to index 10. -/
theorem ta_topBits_iff (c : Config) :
    c.ta.toList.all (fun e => !e.getLsbD 7) = true ↔ ∀ k, k ≤ 10 → (tableA c k).getLsbD 7 = false := by
  have length : c.ta.toList.length = 11 := c.ta.length_toList
  have entry (k : Nat) (hk : k < c.ta.toList.length) : tableA c k = c.ta.toList[k] := List.getD_eq_getElem _ _ hk
  simp only [List.all_eq_true, Bool.not_eq_true', List.forall_mem_iff_forall_getElem]
  constructor
  · intro h k hk
    rw [entry k (by omega)]
    exact h k (by omega)
  · intro h k hk
    rw [← entry k hk]
    exact h k (by omega)

/-- Admission is R7's two conditions, the `N` bytes of DEFAULT (R6), and R8's structural rows, bounds and
disjointness. -/
theorem admitted_iff (c : Config) : c.admitted = true ↔
    1 ≤ c.n ∧ (∀ k, k ≤ 10 → (tableA c k).getLsbD 7 = false) ∧ c.defaultPattern.length = c.n
      ∧ c.layout.shaped = true ∧ (∀ f, ∀ e ∈ c.layout.footprint f, e.1 < c.n)
      ∧ ∀ f g, g ≠ f → ∀ i, c.layout.footprintAt f i &&& c.layout.footprintAt g i = 0 := by
  have layout : (c.layout.within c.n = true ∧ c.layout.disjointFields c.n = true) ↔
      (∀ f, ∀ e ∈ c.layout.footprint f, e.1 < c.n)
        ∧ ∀ f g, g ≠ f → ∀ i, c.layout.footprintAt f i &&& c.layout.footprintAt g i = 0 := by
    rw [← Layout.within_iff]
    exact and_congr_right Layout.disjointFields_iff
  simp only [Config.admitted, Bool.and_eq_true, decide_eq_true_eq, ta_topBits_iff, and_assoc, layout]

/-- Settles O59: both conditions are among those `admitted_iff` names, and every state carries an admitted
configuration. -/
theorem admittedTablesAndSizes : Obligations.AdmittedTablesAndSizes := by
  constructor
  · intro c unmet
    refine Bool.eq_false_iff.mpr fun admitted => unmet ?_
    obtain ⟨size, topBits, -⟩ := (admitted_iff c).mp admitted
    exact ⟨size, topBits⟩
  · intro s
    obtain ⟨size, topBits, -⟩ := (admitted_iff s.config).mp s.cfg.ok
    exact ⟨size, topBits⟩

/-- Settles O60: the first clause reads `admitted_iff` from left to right at the state's configuration, the second from
right to left. -/
theorem admittedLayout : Obligations.AdmittedLayout := by
  constructor
  · intro s f
    obtain ⟨-, -, -, -, below, disjoint⟩ := (admitted_iff s.config).mp s.cfg.ok
    exact ⟨below f, disjoint f⟩
  · intro c size topBits pattern shaped below disjoint
    exact (admitted_iff c).mpr ⟨size, topBits, pattern, shaped, below, disjoint⟩

end Machine
end Sys2Proof
end

section
/-! PROOFS. What a command can do to the state, said once for all twenty (00_scope.md R12, R31): which writes of Display
Memory it makes, what it emits, and the result code it ends with. -/
namespace Sys2Proof.Machine

/-- `s.WritesDm t`: `t` is `s` after some writes of bytes of Display Memory and nothing else. -/
inductive State.WritesDm (s : State) : State → Prop where
  | refl : State.WritesDm s s
  | write {t : State} (h : State.WritesDm s t) (i : Nat) (v : Byte) : State.WritesDm s (t.writeDm i v)

section
variable {s t : State} (h : s.WritesDm t)
include h

/-- Writes of Display Memory leave every other field alone. -/
theorem State.WritesDm.eq_with_dm : t = { s with dm := t.dm } := by
  induction h with
  | refl => rfl
  | write _ i v ih =>
    rw [ih]
    rfl

theorem State.WritesDm.cfg_eq : t.cfg = s.cfg := by rw [h.eq_with_dm]

theorem State.WritesDm.config_eq : t.config = s.config := congrArg AdmittedConfig.config h.cfg_eq

theorem State.WritesDm.trace_eq : t.trace = s.trace := by rw [h.eq_with_dm]

theorem State.WritesDm.dm_wf (wf : Memory.wf s.config s.dm = true) : Memory.wf t.config t.dm = true := by
  induction h with
  | refl => exact wf
  | write _ i v ih => exact Memory.write_wf i v ih

theorem State.WritesDm.mergeByte (i : Nat) (keep val : Byte) : s.WritesDm (t.mergeByte i keep val) := h.write i _

theorem State.WritesDm.putA (i k : Nat) : s.WritesDm (t.putA i k) := h.mergeByte i _ _

theorem State.WritesDm.orA (i k : Nat) : s.WritesDm (t.orA i k) := h.write i _

theorem State.WritesDm.putB2 (a b c d u : Nat) : s.WritesDm (t.putB2 a b c d u) :=
  ((h.mergeByte a _ _).mergeByte b _ _).mergeByte c _ _

theorem State.WritesDm.writeBelow (f : Nat → Byte) (k : Nat) : s.WritesDm (t.writeBelow f k) := by
  induction k with
  | zero => exact h
  | succ k ih => exact ih.write k (f k)

theorem State.WritesDm.setTemp (tb ub : Nat) (v : Int) : s.WritesDm (t.setTemp tb ub v) := by
  unfold State.setTemp
  split <;> exact (h.putA tb _).putA ub _

end

/-- What a command that meets `s` and leaves `t` can have done: ended with an error (R201); sent the initialisation frame
(R190); or written Display Memory and transferred the whole buffer (R150, R191 to R193). -/
inductive CommandCase (s t : State) : Prop where
  | error (code : BitVec 2) (h : t = s.setResult code)
  | initialised (h : t = (s.afterEvents (initEvents s.config)).setResult codeOk)
  | transferred (u : State) (hu : s.WritesDm u) (h : t = u.transfer.setResult codeOk)

theorem execInit_eq (s : State) : execInit s = .next ((s.afterEvents (initEvents s.config)).setResult codeOk) := by
  simp [execInit, State.complete, State.sendFrame_eq, State.afterEvents, initEvents, State.config]

theorem setField_completes {f : Field} {op : Int → State → State} {v : Int} {s : State} (hop : s.WritesDm (op v s)) :
    ∃ t, setField f op v s = .next t ∧ CommandCase s t := by
  rcases setField_cases f op v s with ⟨-, he⟩ | ⟨-, he⟩
  · exact ⟨_, he, .error codeRange rfl⟩
  · exact ⟨_, he, .transferred _ hop rfl⟩

/-- Every command completes, in one of the three ways. -/
theorem exec_completes (i : Instr) (s : State) : ∃ t, exec i s = .next t ∧ CommandCase s t := by
  have start : s.WritesDm s := .refl
  cases i with
  | init => exact ⟨_, execInit_eq s, .initialised rfl⟩
  | clr => exact ⟨_, rfl, .transferred _ (start.writeBelow _ _) rfl⟩
  | fill => exact ⟨_, rfl, .transferred _ (start.writeBelow _ _) rfl⟩
  | ldef => exact ⟨_, rfl, .transferred _ (start.writeBelow _ _) rfl⟩
  | setfSignal v => exact setField_completes (((start.mergeByte _ _ _).mergeByte _ _ _).mergeByte _ _ _)
  | setfBell v => exact setField_completes (start.mergeByte _ _ _)
  | setfHour v => exact setField_completes (start.putB2 _ _ _ _ _)
  | setfMinute v => exact setField_completes (start.putB2 _ _ _ _ _)
  | setfScore v => exact setField_completes (start.putB2 _ _ _ _ _)
  | setfBattery v => exact setField_completes ((start.mergeByte _ _ _).mergeByte _ _ _)
  | setfTemp1 v => exact setField_completes (start.setTemp _ _ v)
  | setfTemp2 v => exact setField_completes (start.setTemp _ _ v)
  | setfHumidity v => exact setField_completes ((start.putA _ _).putA _ _)
  | setfCo2 v => exact setField_completes (((start.orA _ _).orA _ _).putA _ _)
  | setf10 v => exact ⟨_, rfl, .error codeUnknown rfl⟩
  | setf11 v => exact ⟨_, rfl, .error codeUnknown rfl⟩
  | setf12 v => exact ⟨_, rfl, .error codeUnknown rfl⟩
  | setf13 v => exact ⟨_, rfl, .error codeUnknown rfl⟩
  | setf14 v => exact ⟨_, rfl, .error codeUnknown rfl⟩
  | setf15 v => exact ⟨_, rfl, .error codeUnknown rfl⟩

/-- The inversion of a command. -/
theorem exec_cases {i : Instr} {s t : State} (h : exec i s = .next t) : CommandCase s t := by
  obtain ⟨t', he, hc⟩ := exec_completes i s
  cases he.symm.trans h
  exact hc

theorem CommandCase.cfg_eq {s t : State} (h : CommandCase s t) : t.cfg = s.cfg := by
  cases h with
  | error code h => rw [h, State.setResult_cfg]
  | initialised h => rw [h, State.setResult_cfg, State.afterEvents_cfg]
  | transferred u hu h => rw [h, State.setResult_cfg, State.transfer_eq, State.afterEvents_cfg, hu.cfg_eq]

end Sys2Proof.Machine
end

section
/-! PROOFS. What every step keeps (10_state.md R23, R24, R26, R124, R232): the invariant and the configuration, O14 and
O15. -/
namespace Sys2Proof.Machine

/-- The invariant speaks of the configuration, Display Memory and RESULT alone. -/
theorem State.Inv.congr {s t : State} (h : s.Inv) (hc : t.cfg = s.cfg) (hm : t.dm = s.dm) (hr : t.result = s.result) :
    t.Inv := by
  unfold State.Inv State.config at h ⊢
  rwa [hc, hm, hr]

/-- What the host gets back is no part of the invariant. -/
theorem State.Inv.reply {s : State} (h : s.Inv) (r : HostReply) : (s.reply r).Inv := h

/-- Writing a result code needs no more than a canonical Display Memory to meet the invariant (R24). -/
theorem State.inv_setResult {s : State} (wf : Memory.wf s.config s.dm = true) (code : BitVec 2) :
    (s.setResult code).Inv := by
  have upper : ∀ c : BitVec 2, (c.zeroExtend 32).extractLsb' 2 30 = 0 := by decide
  exact ⟨wf, upper code⟩

theorem CommandCase.inv {s t : State} (h : CommandCase s t) (inv : s.Inv) : t.Inv := by
  obtain ⟨wf, -⟩ := inv
  cases h with
  | error code h =>
    rw [h]
    exact State.inv_setResult wf code
  | initialised h =>
    rw [h]
    exact State.inv_setResult wf codeOk
  | transferred u hu h =>
    rw [h, State.transfer_eq]
    exact State.inv_setResult (hu.dm_wf wf) codeOk

/-- Settles O14, case by case of a step: what takes or answers a host action touches none of the invariant's data, a
reset lists no byte, and a command is one of the three of `CommandCase`. -/
theorem stepKeepsInvariant : Obligations.StepKeepsInvariant := by
  intro s u inv hstep
  have taken {t : State} (ht : t = { s with inbox := t.inbox }) : t.Inv :=
    inv.congr (by rw [ht]) (by rw [ht]) (by rw [ht])
  cases step_cases hstep with
  | idle h => exact h ▸ inv
  | powerOn t clk dat ht h =>
    rw [h]
    exact ⟨rfl, by simp⟩
  | register t r ht h =>
    rw [h]
    exact (taken ht).reply r
  | illegal t ht h =>
    obtain ⟨wf, -⟩ := taken ht
    rw [h]
    exact (State.inv_setResult wf codeIllegal).reply .written
  | command t t' i ht he h =>
    rw [h]
    exact ((exec_cases he).inv (taken ht)).reply .written

/-- Settles O15: in every case of a step the configuration is the one of the state with the host action taken. -/
theorem stepKeepsConfiguration : Obligations.StepKeepsConfiguration := by
  intro s u hstep
  have taken {t : State} (ht : t = { s with inbox := t.inbox }) : t.cfg = s.cfg := by rw [ht]
  cases step_cases hstep with
  | idle h => rw [h]
  | powerOn t clk dat ht h => rw [h, State.powerOn_cfg, taken ht]
  | register t r ht h => rw [h, State.reply_cfg, taken ht]
  | illegal t ht h => rw [h, State.reply_cfg, State.setResult_cfg, taken ht]
  | command t t' i ht he h => rw [h, State.reply_cfg, (exec_cases he).cfg_eq, taken ht]

end Sys2Proof.Machine
end

section
/-! PROOFS. The lines and the frame: a command's latches from its trace (10_state.md R31, 20_memory.md R57), and the
phases of a frame (10_state.md R28), O44 and O45. -/
namespace Sys2Proof.Machine

/-- Whatever came before, the stop of a frame leaves both lines low (40_bus_protocol.md R114). -/
theorem replay_frameEvents (c : Config) (l : Lines) (p : List Byte) : replay c l (frameEvents c p) = ⟨false, false⟩ := by
  unfold frameEvents
  rw [replay_append, replay_append]
  rfl

theorem replay_dataFrame (c : Config) (l : Lines) (dm : List Byte) : replay c l (dataFrame c dm) = ⟨false, false⟩ :=
  replay_frameEvents c l _

theorem replay_initEvents (c : Config) (l : Lines) : replay c l (initEvents c) = ⟨false, false⟩ :=
  replay_frameEvents c _ (initBytes c)

/-- Settles O44: an error emits nothing, and every other command ends with a frame, whose replay and whose closed form
both leave the lines low. -/
theorem latchesAreReplayOfTrace : Obligations.LatchesAreReplayOfTrace := by
  intro i s t he
  cases exec_cases he with
  | error code h =>
    refine ⟨[], ?_, ?_⟩
    · simp [h]
    · rw [h]
      rfl
  | initialised h =>
    refine ⟨initEvents s.config, ?_, ?_⟩
    · simp [h]
    · rw [h, replay_initEvents]
      rfl
  | transferred u hu h =>
    rw [State.transfer_eq] at h
    refine ⟨dataFrame u.config u.dmGet, ?_, ?_⟩
    · simp [h, hu.trace_eq]
    · rw [h, hu.config_eq, replay_dataFrame]
      rfl

/-- The byte phases of a frame, in index order, send its bytes. -/
theorem foldl_bytePhases (p : List Byte) (s : State) :
    ((List.range p.length).map Phase.byte).foldl (State.runPhase p) s = s.sendBytes p := by
  rw [List.foldl_map]
  induction p generalizing s with
  | nil => rfl
  | cons b p ih =>
    rw [List.length_cons, List.range_succ_eq_map, List.foldl_cons, List.foldl_map]
    exact ih (s.sendByte b)

/-- Settles O45: the start, the byte phases and the stop are the three parts of `State.sendFrame`. -/
theorem framePhasesInOrder : Obligations.FramePhasesInOrder := by
  intro p s
  rw [framePhases, List.cons_append, List.foldl_cons, List.foldl_append, foldl_bytePhases]
  rfl

end Sys2Proof.Machine
end

section
/-! PROOFS. The host port (10_state.md R24, R25, 20_memory.md R54, 60_exceptions.md R212): how a word becomes a run of its
command, and the register accesses that run none, O7 and O10. -/
namespace Sys2Proof.Machine

/-- A word that decodes runs its command, which completes the write. -/
theorem runWord_of_decode {w : Word} {i : Instr} {s t : State} (hd : decode w = .ok i) (he : exec i s = .next t) :
    runWord exec w s = .next (t.reply .written) := by
  unfold runWord
  rw [hd]
  exact congrArg completeWrite he

/-- Settles O7, with the completion of every command by `exec_completes`. -/
theorem stepRunsDecodedCommand : Obligations.StepRunsDecodedCommand := by
  intro s rest w i hi hd
  obtain ⟨t, he, -⟩ := exec_completes i { s with inbox := rest }
  exact ⟨t, he, (step_eq_serve hi).trans (runWord_of_decode hd he)⟩

/-- A read of RESULT gives CODE in bits 1:0 (R24). -/
theorem readResult_code (s : State) : s.readResult.extractLsb' 0 2 = s.result.extractLsb' 0 2 := by
  ext k hk
  have below : k < 32 := by omega
  simp [State.readResult, hk, below]

/-- A read of RESULT gives 0 in bits 31:2 (R24). -/
theorem readResult_upper (s : State) : s.readResult.extractLsb' 2 30 = 0 := by
  ext k hk
  simp [State.readResult]

/-- Settles O10: each of the three accesses is served by its own branch of the host port. -/
theorem registerReads : Obligations.RegisterReads := by
  intro s rest data
  refine ⟨fun h => ?_, fun h => ?_, fun h => ?_⟩
  · exact step_eq_serve h
  · exact ⟨s.readResult, step_eq_serve h, readResult_code s, readResult_upper s⟩
  · exact step_eq_serve h

end Sys2Proof.Machine
end

section
/-! PROOFS. Which host actions the port serves and which it refuses (20_memory.md R52, R54), O9. -/
namespace Sys2Proof.Machine

/-- A write of any word to `CMD` completes, whether or not the word encodes a command (R25, R76). -/
theorem runWord_completes (w : Word) (s : State) : ∃ t, runWord exec w s = .next t := by
  cases hd : decode w with
  | ok i =>
    obtain ⟨t, he, -⟩ := exec_completes i s
    exact ⟨t.reply .written, runWord_of_decode hd he⟩
  | error e =>
    refine ⟨(s.setResult codeIllegal).reply .written, ?_⟩
    rw [runWord, hd]
    rfl

theorem HostAction.allowed_write_iff (offset width : Nat) (data : Word) :
    (HostAction.write offset width data).allowed = true ↔
      width = accessWidth ∧ (offset = cmdOffset ∨ offset = resultOffset) := by
  simp [HostAction.allowed, accessWidth, cmdOffset, resultOffset]

theorem HostAction.allowed_read_iff (offset width : Nat) :
    (HostAction.read offset width).allowed = true ↔
      width = accessWidth ∧ (offset = cmdOffset ∨ offset = resultOffset) := by
  simp [HostAction.allowed, accessWidth, cmdOffset, resultOffset]

theorem serveWrite_refused {offset width : Nat}
    (h : ¬(width = accessWidth ∧ (offset = cmdOffset ∨ offset = resultOffset))) (data : Word) (s : State) :
    serveWrite exec offset width data s = .refused (.hostAccess offset width) := by
  unfold serveWrite
  split_ifs with width32 cmd result
  · exact absurd ⟨width32, .inl cmd⟩ h
  · exact absurd ⟨width32, .inr result⟩ h
  · rfl
  · rfl

theorem serveRead_refused {offset width : Nat}
    (h : ¬(width = accessWidth ∧ (offset = cmdOffset ∨ offset = resultOffset))) (s : State) :
    serveRead offset width s = .refused (.hostAccess offset width) := by
  unfold serveRead
  split_ifs with width32 cmd result
  · exact absurd ⟨width32, .inl cmd⟩ h
  · exact absurd ⟨width32, .inr result⟩ h
  · rfl
  · rfl

/-- The port serves every allowed action to completion. -/
theorem serve_completes {a : HostAction} (h : a.allowed = true) (s : State) : ∃ t, serve exec a s = .next t := by
  cases a with
  | write offset width data =>
    obtain ⟨rfl, rfl | rfl⟩ := (HostAction.allowed_write_iff offset width data).mp h
    · exact runWord_completes data s
    · exact ⟨s.reply .written, rfl⟩
  | read offset width =>
    obtain ⟨rfl, rfl | rfl⟩ := (HostAction.allowed_read_iff offset width).mp h
    · exact ⟨s.reply (.value 0), rfl⟩
    · exact ⟨s.reply (.value s.readResult), rfl⟩
  | powerOn clk dat => exact ⟨s.powerOn clk dat, rfl⟩

/-- The port refuses every other action, which is an access of a wrong width or at a wrong offset. -/
theorem serve_refused {a : HostAction} (h : a.allowed = false) (s : State) :
    ∃ offset width, serve exec a s = .refused (.hostAccess offset width) := by
  have denied := ne_true_of_eq_false h
  cases a with
  | write offset width data =>
    exact ⟨offset, width, serveWrite_refused (mt (HostAction.allowed_write_iff offset width data).mpr denied) data s⟩
  | read offset width =>
    exact ⟨offset, width, serveRead_refused (mt (HostAction.allowed_read_iff offset width).mpr denied) s⟩
  | powerOn clk dat => exact absurd rfl denied

/-- Settles O9: a step with an action pending serves it, and the port completes the allowed actions and refuses the
others. That a power-on reset is always served is R220 (log entries 5 and 7). -/
theorem accessRefusedExactly : Obligations.AccessRefusedExactly := by
  intro s a rest hi
  rw [step_eq_serve hi]
  refine ⟨fun h => serve_completes h _, fun h => ?_⟩
  obtain ⟨offset, width, refused⟩ := serve_refused h { s with inbox := rest }
  exact ⟨.hostAccess offset width, refused⟩

end Sys2Proof.Machine
end

section
/-! PROOFS. The masked writes (20_memory.md R62, R63), and that the value and the keep mask are disjoint at every call of
`MergeByte` (42_segment_tables.md R136, R138, 43_field_encoder.md R152, R153, R157), O53. -/
namespace Sys2Proof.Machine

theorem and_not_eq_self {val keep : Byte} (h : val &&& keep = 0) : val &&& ~~~keep = val :=
  calc val &&& ~~~keep = (val &&& ~~~keep) ||| (val &&& keep) := by rw [h]; exact BitVec.or_zero.symm
    _ = val &&& (~~~keep ||| keep) := BitVec.and_or_distrib_left.symm
    _ = val := by rw [BitVec.not_or_self, BitVec.and_allOnes]

/-- R62: outside the keep mask a merge leaves exactly the value. -/
theorem merge_and_not_keep {val keep : Byte} (h : val &&& keep = 0) (old : Byte) :
    ((old &&& keep) ||| val) &&& ~~~keep = val := by
  rw [BitVec.and_or_distrib_right, BitVec.and_assoc, BitVec.and_not_self, and_not_eq_self h]
  exact (congrArg (· ||| val) BitVec.and_zero).trans BitVec.zero_or

/-- R62: inside the keep mask a merge leaves the old bits. -/
theorem merge_and_keep {val keep : Byte} (h : val &&& keep = 0) (old : Byte) :
    ((old &&& keep) ||| val) &&& keep = old &&& keep := by
  rw [BitVec.and_or_distrib_right, BitVec.and_assoc, BitVec.and_self, h]
  exact BitVec.or_zero

theorem State.keepsBytes_mergeByte (s : State) (i : Nat) (keep val : Byte) :
    s.KeepsBytes (s.mergeByte i keep val) [i] :=
  fun _ hk => State.readDm_writeDm_other (List.ne_of_not_mem_cons hk) _

theorem State.keepsBytes_orByte (s : State) (i : Nat) (val : Byte) : s.KeepsBytes (s.orByte i val) [i] :=
  fun _ hk => State.readDm_writeDm_other (List.ne_of_not_mem_cons hk) _

theorem State.MergesDisjointly.nil (s : State) : s.MergesDisjointly s [] :=
  ⟨rfl, fun _ h => nomatch h⟩

/-- One disjoint call of `MergeByte` before a list of such calls. -/
theorem State.MergesDisjointly.cons {s t : State} {i : Nat} {keep val : Byte} {calls : List (Nat × Byte × Byte)}
    (disjoint : val &&& keep = 0) (h : (s.mergeByte i keep val).MergesDisjointly t calls) :
    s.MergesDisjointly t ((i, keep, val) :: calls) := by
  obtain ⟨merged, rest⟩ := h
  exact ⟨merged, List.forall_mem_cons.mpr ⟨disjoint, rest⟩⟩

theorem or_and_eq_zero {a b keep : Byte} (ha : a &&& keep = 0) (hb : b &&& keep = 0) : (a ||| b) &&& keep = 0 := by
  rw [BitVec.and_or_distrib_right, ha, hb]
  rfl

/-- A mask that is shown or left out by a condition lies outside every keep mask it is disjoint from. -/
theorem ite_and_eq_zero {p : Prop} [Decidable p] {m keep : Byte} (h : m &&& keep = 0) :
    (if p then m else 0) &&& keep = 0 := by
  split
  · exact h
  · exact BitVec.zero_and

theorem tier_and_eq_zero {m keep : Byte} (h : m &&& keep = 0) (k level : Nat) : tier k level m &&& keep = 0 :=
  ite_and_eq_zero h

theorem and_not_or_of_left {m a : Byte} (h : m &&& ~~~a = 0) (b : Byte) : m &&& ~~~(a ||| b) = 0 := by
  rw [BitVec.not_or, ← BitVec.and_assoc, h]
  exact BitVec.zero_and

theorem and_not_or_of_right {m b : Byte} (h : m &&& ~~~b = 0) (a : Byte) : m &&& ~~~(a ||| b) = 0 := by
  rw [BitVec.or_comm]
  exact and_not_or_of_left h a

/-- Bit 7 of an entry of Table A is 0 (00_scope.md R7), the one bit `PutA` keeps. -/
theorem tableA_and_keep (s : State) {k : Nat} (hk : k ≤ 10) : tableA s.config k &&& 0x80 = 0 := by
  obtain ⟨-, topBits, -⟩ := (admitted_iff s.config).mp s.cfg.ok
  exact (BitVec.and_twoPow _ 7).trans (if_neg (ne_true_of_eq_false (topBits k hk)))

theorem highBits_and_keep (pt : Byte) : pt >>> 4 &&& 0xF0 = 0 := by
  ext k hk
  interval_cases k <;> simp

theorem middleBits_and_keep (pt pu : Byte) : middleBits pt pu &&& 0x10 = 0 := by
  unfold middleBits
  ext k hk
  interval_cases k <;> simp

theorem lowBits_and_keep (pu : Byte) : (pu &&& 0x07) <<< 5 &&& 0x1F = 0 := by
  ext k hk
  interval_cases k <;> simp

theorem batteryBars_and_keep (level : Nat) : batteryBars level &&& 0xF0 = 0 := by
  unfold batteryBars
  split <;> rfl

theorem putA_mergesDisjointly (s : State) (i : Nat) {k : Nat} (hk : k ≤ 10) :
    s.MergesDisjointly (s.putA i k) [(i, 0x80, tableA s.config k)] :=
  .cons (tableA_and_keep s hk) (.nil _)

theorem putB2_mergesDisjointly (s : State) (a b c d u : Nat) :
    s.MergesDisjointly (s.putB2 a b c d u)
      [(a, 0xF0, tableB s.config (digitIndex d) >>> 4),
       (b, 0x10, middleBits (tableB s.config (digitIndex d)) (tableB s.config (digitIndex u))),
       (c, 0x1F, (tableB s.config (digitIndex u) &&& 0x07) <<< 5)] :=
  .cons (highBits_and_keep _) (.cons (middleBits_and_keep _ _) (.cons (lowBits_and_keep _) (.nil _)))

/-- A tier of one of the three indicators of a byte lies outside the mask that keeps all but the three. -/
theorem signalTiers_and_keep (m₁ m₂ m₃ : Byte) (level : Nat) :
    (tier 1 level m₁ ||| tier 2 level m₂ ||| tier 3 level m₃) &&& ~~~(m₁ ||| m₂ ||| m₃) = 0 := by
  have h₁ : m₁ &&& ~~~(m₁ ||| m₂ ||| m₃) = 0 := and_not_or_of_left (and_not_or_of_left (BitVec.and_not_self _) _) _
  have h₂ : m₂ &&& ~~~(m₁ ||| m₂ ||| m₃) = 0 := and_not_or_of_left (and_not_or_of_right (BitVec.and_not_self _) _) _
  have h₃ : m₃ &&& ~~~(m₁ ||| m₂ ||| m₃) = 0 := and_not_or_of_right (BitVec.and_not_self _) _
  exact or_and_eq_zero (or_and_eq_zero (tier_and_eq_zero h₁ _ _) (tier_and_eq_zero h₂ _ _)) (tier_and_eq_zero h₃ _ _)

/-- Settles O53: the two laws by the read equations of the masked writes, and the disjointness operation by operation, from
the patterns and masks of its calls. -/
theorem maskedWrites : Obligations.MaskedWrites := by
  refine ⟨fun s i keep val hi => ?_, fun s i k => putA_mergesDisjointly s i, putB2_mergesDisjointly, fun s v => ?_⟩
  · have merged : (s.mergeByte i keep val).readDm i = (s.readDm i &&& keep) ||| val := State.readDm_writeDm_same hi _
    refine ⟨merged, s.keepsBytes_mergeByte i keep val, State.readDm_writeDm_same hi _, s.keepsBytes_orByte i val, ?_⟩
    intro disjoint
    rw [merged]
    exact ⟨merge_and_not_keep disjoint _, merge_and_keep disjoint _⟩
  · have single (m : Byte) (k : Nat) : tier k (magnitude v) m &&& ~~~m = 0 :=
      tier_and_eq_zero (BitVec.and_not_self m) k _
    refine ⟨?_, ?_, ?_⟩
    · exact .cons (signalTiers_and_keep _ _ _ _) (.cons (single _ 4) (.cons (single _ 5) (.nil _)))
    · exact .cons (ite_and_eq_zero (BitVec.and_not_self _)) (.nil _)
    · exact .cons (single _ 1) (.cons (batteryBars_and_keep _) (.nil _))

end Sys2Proof.Machine
end

section
/-! PROOFS. The command word by its fields (30_encoding.md R70): equality and masks field by field, and R76's conditions
read on the fields. -/
namespace Sys2Proof.Machine

theorem wordOfFields_inj {op op' ft ft' : BitVec 4} {rsv rsv' : BitVec 8} {val val' : BitVec 16} :
    wordOfFields op ft rsv val = wordOfFields op' ft' rsv' val' ↔ op = op' ∧ ft = ft' ∧ rsv = rsv' ∧ val = val' := by
  constructor
  · intro h
    exact ⟨by simpa using congrArg cmdOp h, by simpa using congrArg cmdFt h, by simpa using congrArg cmdRsv h,
      by simpa using congrArg cmdVal h⟩
  · rintro ⟨rfl, rfl, rfl, rfl⟩
    rfl

theorem eq_wordOfFields_iff (w : Word) (op ft : BitVec 4) (rsv : BitVec 8) (val : BitVec 16) :
    w = wordOfFields op ft rsv val ↔ cmdOp w = op ∧ cmdFt w = ft ∧ cmdRsv w = rsv ∧ cmdVal w = val := by
  rw [← wordOfFields_inj, wordOfFields_fields]

/-- A mask laid out in fields masks field by field. -/
theorem and_wordOfFields (w : Word) (op ft : BitVec 4) (rsv : BitVec 8) (val : BitVec 16) :
    w &&& wordOfFields op ft rsv val =
      wordOfFields (cmdOp w &&& op) (cmdFt w &&& ft) (cmdRsv w &&& rsv) (cmdVal w &&& val) := by
  conv_lhs => rw [← wordOfFields_fields w]
  unfold wordOfFields
  rw [BitVec.and_append, BitVec.and_append, BitVec.and_append]

theorem wordOfFields_or (op op' ft ft' : BitVec 4) (rsv rsv' : BitVec 8) (val val' : BitVec 16) :
    wordOfFields op ft rsv val ||| wordOfFields op' ft' rsv' val' =
      wordOfFields (op ||| op') (ft ||| ft') (rsv ||| rsv') (val ||| val') := by
  unfold wordOfFields
  rw [BitVec.or_append, BitVec.or_append, BitVec.or_append]

/-- The mask of the `SETF` rows leaves OP, FT and RSV (R84). -/
theorem and_setfMask (w : Word) : w &&& 0xFFFF0000#32 = wordOfFields (cmdOp w) (cmdFt w) (cmdRsv w) 0#16 := by
  have mask : 0xFFFF0000#32 = wordOfFields (.allOnes 4) (.allOnes 4) (.allOnes 8) 0#16 := by decide
  simp only [mask, and_wordOfFields, BitVec.and_allOnes, BitVec.and_zero]

/-- Bits 27:0 of a word, as R76 tests them. -/
theorem and_operandMask_eq_zero (w : Word) : w &&& 0x0FFFFFFF#32 = 0#32 ↔ cmdOperands w = 0#28 := by
  have mask : 0x0FFFFFFF#32 = wordOfFields 0#4 (.allOnes 4) (.allOnes 8) (.allOnes 16) := by decide
  have zero : 0#32 = wordOfFields 0#4 0#4 0#8 0#16 := by decide
  simp only [mask, zero, and_wordOfFields, BitVec.and_allOnes, BitVec.and_zero, wordOfFields_inj,
    cmdOperands_eq_zero, true_and]

/-- The reserved bits of a word, as R76 tests them. -/
theorem and_reservedMask_eq_zero (w : Word) : w &&& 0x00FF0000#32 = 0#32 ↔ cmdRsv w = 0#8 := by
  have mask : 0x00FF0000#32 = wordOfFields 0#4 0#4 (.allOnes 8) 0#16 := by decide
  have zero : 0#32 = wordOfFields 0#4 0#4 0#8 0#16 := by decide
  simp only [mask, zero, and_wordOfFields, BitVec.and_allOnes, BitVec.and_zero, wordOfFields_inj, true_and, and_true]

theorem shiftRight_toNat_eq_cmdOp (w : Word) : (w >>> 28).toNat = (cmdOp w).toNat := by
  have bound := w.isLt
  simp only [cmdOp, BitVec.extractLsb'_toNat, BitVec.toNat_ushiftRight, Nat.shiftRight_eq_div_pow]
  omega

theorem shiftRight_eq_iff (w : Word) (op : BitVec 4) : w >>> 28 = op.setWidth 32 ↔ cmdOp w = op := by
  rw [← BitVec.toNat_inj, ← BitVec.toNat_inj, shiftRight_toNat_eq_cmdOp, BitVec.toNat_setWidth_of_le (by decide)]

/-- R76's three conditions on the word's bits are conditions on its fields. -/
theorem illegalWord_iff (w : Word) : illegalWord w ↔
    (cmdOp w = 0#4 ∨ 6 ≤ (cmdOp w).toNat)
      ∨ ((1 ≤ (cmdOp w).toNat ∧ (cmdOp w).toNat ≤ 4) ∧ cmdOperands w ≠ 0#28)
      ∨ (cmdOp w = 5#4 ∧ cmdRsv w ≠ 0#8) := by
  have op0 : w >>> 28 = 0#32 ↔ cmdOp w = 0#4 := shiftRight_eq_iff w 0#4
  have op5 : w >>> 28 = 5#32 ↔ cmdOp w = 5#4 := shiftRight_eq_iff w 5#4
  rw [illegalWord, op0, op5, shiftRight_toNat_eq_cmdOp, ne_eq, and_operandMask_eq_zero, ne_eq,
    and_reservedMask_eq_zero]

end Sys2Proof.Machine
end

section
/-! PROOFS. The value operand both ways (30_encoding.md R73, R79), O58. -/
namespace Sys2Proof.Machine

theorem sext16_eq_toInt (val : BitVec 16) : sext16 val = val.toInt := by
  rw [BitVec.toInt_eq_msb_cond, BitVec.msb_eq_getLsbD_last]
  rfl

theorem sext16_valBits {v : Int} (fits : valueFits v = true) : sext16 (valBits v) = v := by
  obtain ⟨low, high⟩ := (valueFits_iff v).mp fits
  rw [sext16_eq_toInt]
  exact BitVec.toInt_ofInt_eq_self (by decide) low (by omega)

theorem valBits_sext16 (val : BitVec 16) : valBits (sext16 val) = val := by
  rw [sext16_eq_toInt]
  exact BitVec.ofInt_toInt

theorem valueFits_sext16 (val : BitVec 16) : valueFits (sext16 val) = true := by
  have low : -32768 ≤ val.toInt := BitVec.le_toInt val
  have high : val.toInt < 32768 := BitVec.toInt_lt
  rw [sext16_eq_toInt, valueFits_iff]
  omega

/-- Settles O58: the VAL of an integer is the one the assembler writes. -/
theorem valueIsTwosComplement : Obligations.ValueIsTwosComplement :=
  ⟨sext16_eq_toInt, fun x low high => ⟨valBits x, sext16_valBits ((valueFits_iff x).mpr ⟨low, high⟩)⟩⟩

end Sys2Proof.Machine
end

section
/-! PROOFS. The decoder and the encoder (30_encoding.md R71, R74, R75, R77, R79): the commands in their two groups, the
five answers of the decoder, and the round trip both ways, O1, O2 and O5. -/
namespace Sys2Proof.Machine

/-- The commands without operands, by operation (R71, R74). -/
def chipCommands : List (BitVec 4 × Instr) := [(1#4, .init), (2#4, .clr), (3#4, .fill), (4#4, .ldef)]

section
variable {op : BitVec 4} {i : Instr} (row : (op, i) ∈ chipCommands)
include row

theorem chipCommands_op : 1 ≤ op.toNat ∧ op.toNat ≤ 4 := by fin_cases row <;> decide

theorem chipCommands_operand : i.operand = none := by fin_cases row <;> rfl

theorem encode_of_mem_chipCommands : encode i = chipWord op := by fin_cases row <;> rfl

theorem decode_chipWord : decode (chipWord op) = .ok i := by fin_cases row <;> rfl

end

section
variable (ft : BitVec 4) (v : Int)

theorem operand_setfOf : (setfOf ft v).operand = some v := by
  unfold setfOf
  split <;> rfl

theorem wellFormed_setfOf : (setfOf ft v).wellFormed = valueFits v := by
  rw [Instr.wellFormed, operand_setfOf]

/-- The mnemonic of a `SETF` command is its field type's, whatever the value. -/
theorem mnemonic_setfOf (v' : Int) : (setfOf ft v).mnemonic = (setfOf ft v').mnemonic := by
  unfold setfOf
  split <;> rfl

theorem encode_setfOf : encode (setfOf ft v) = setfWord ft v := by
  obtain ⟨k⟩ := ft
  fin_cases k <;> rfl

end

/-- The five answers of the decoder to a word, each with the test of R77 that leads to it. -/
inductive DecodeCase (w : Word) : Except IllegalWord Instr → Prop where
  | chip {op : BitVec 4} {i : Instr} (row : (op, i) ∈ chipCommands) (hop : cmdOp w = op)
      (operands : cmdOperands w = 0#28) : DecodeCase w (.ok i)
  | operandBitsSet {op : BitVec 4} {i : Instr} (row : (op, i) ∈ chipCommands) (hop : cmdOp w = op)
      (operands : cmdOperands w ≠ 0#28) : DecodeCase w (.error (.operandBitsSet op))
  | setf (hop : cmdOp w = 5#4) (rsv : cmdRsv w = 0#8) : DecodeCase w (.ok (setfOf (cmdFt w) (sext16 (cmdVal w))))
  | reservedBitsSet (hop : cmdOp w = 5#4) (rsv : cmdRsv w ≠ 0#8) :
      DecodeCase w (.error (.reservedBitsSet (cmdRsv w)))
  | undefinedOp (hop : cmdOp w = 0#4 ∨ 6 ≤ (cmdOp w).toNat) : DecodeCase w (.error (.undefinedOp (cmdOp w)))

theorem noOperands_cases {w : Word} {op : BitVec 4} {i : Instr} (row : (op, i) ∈ chipCommands) (hop : cmdOp w = op) :
    DecodeCase w (noOperands w i) := by
  unfold noOperands
  split
  · exact .chip row hop ‹_›
  · rw [hop]
    exact .operandBitsSet row hop ‹_›

/-- The inversion of the decoder. -/
theorem decode_cases (w : Word) : DecodeCase w (decode w) := by
  unfold decode
  split_ifs with op1 op2 op3 op4 op5 rsv
  · exact noOperands_cases (by decide) op1
  · exact noOperands_cases (by decide) op2
  · exact noOperands_cases (by decide) op3
  · exact noOperands_cases (by decide) op4
  · exact .setf op5 rsv
  · exact .reservedBitsSet op5 rsv
  · exact .undefinedOp (by bv_omega)

theorem decode_of_setf {w : Word} (hop : cmdOp w = 5#4) (rsv : cmdRsv w = 0#8) :
    decode w = .ok (setfOf (cmdFt w) (sext16 (cmdVal w))) := by
  simp [decode, hop, rsv]

theorem decode_setfWord (ft : BitVec 4) {v : Int} (fits : valueFits v = true) :
    decode (setfWord ft v) = .ok (setfOf ft v) := by
  rw [setfWord, decode_of_setf (by simp) (by simp), cmdFt_wordOfFields, cmdVal_wordOfFields, sext16_valBits fits]

/-- Settles O1: the four chip commands by their words, each `SETF` command as the one of its field type. -/
theorem decodeOfEncode : Obligations.DecodeOfEncode := by
  intro i wf
  cases i with
  | init => rfl
  | clr => rfl
  | fill => rfl
  | ldef => rfl
  | setfSignal v => exact decode_setfWord 0x0 wf
  | setfBell v => exact decode_setfWord 0x1 wf
  | setfHour v => exact decode_setfWord 0x2 wf
  | setfMinute v => exact decode_setfWord 0x3 wf
  | setfScore v => exact decode_setfWord 0x4 wf
  | setfBattery v => exact decode_setfWord 0x5 wf
  | setfTemp1 v => exact decode_setfWord 0x6 wf
  | setfTemp2 v => exact decode_setfWord 0x7 wf
  | setfHumidity v => exact decode_setfWord 0x8 wf
  | setfCo2 v => exact decode_setfWord 0x9 wf
  | setf10 v => exact decode_setfWord 0xA wf
  | setf11 v => exact decode_setfWord 0xB wf
  | setf12 v => exact decode_setfWord 0xC wf
  | setf13 v => exact decode_setfWord 0xD wf
  | setf14 v => exact decode_setfWord 0xE wf
  | setf15 v => exact decode_setfWord 0xF wf

/-- A word of a chip operation whose operand bits are 0 is that operation's word (R74). -/
theorem eq_chipWord {w : Word} {op : BitVec 4} (hop : cmdOp w = op) (operands : cmdOperands w = 0#28) :
    w = chipWord op :=
  (eq_wordOfFields_iff w _ _ _ _).mpr ⟨hop, (cmdOperands_eq_zero w).mp operands⟩

/-- Settles O2: in the two cases of `DecodeCase` that answer a command, the tests passed fix every field of the word. -/
theorem encodeOfDecode : Obligations.EncodeOfDecode := by
  intro w i hd
  have c := decode_cases w
  rw [hd] at c
  cases c with
  | chip row hop operands =>
    rw [encode_of_mem_chipCommands row, Instr.wellFormed, chipCommands_operand row]
    exact ⟨(eq_chipWord hop operands).symm, rfl⟩
  | setf hop rsv =>
    rw [encode_setfOf, setfWord, valBits_sext16, wellFormed_setfOf]
    exact ⟨((eq_wordOfFields_iff w _ _ _ _).mpr ⟨hop, rfl, rsv, rfl⟩).symm, valueFits_sext16 _⟩

/-- Settles O5: the decoder computes each of the seven words. -/
theorem specWordsDecode : Obligations.SpecWordsDecode := by
  unfold Obligations.SpecWordsDecode
  decide

end Sys2Proof.Machine
end

section
/-! PROOFS. The illegal words and the unknown field types (30_encoding.md R75, R76, 43_field_encoder.md R151,
60_exceptions.md R201), O3. -/
namespace Sys2Proof.Machine

/-- The decoder rejects exactly the words R76 names. -/
theorem decode_error_iff (w : Word) : (∃ e, decode w = .error e) ↔ illegalWord w := by
  rw [illegalWord_iff]
  have c := decode_cases w
  generalize decode w = d at c ⊢
  cases c with
  | chip row hop operands =>
    obtain ⟨low, high⟩ := chipCommands_op row
    refine iff_of_false nofun ?_
    rintro (undefinedOp | ⟨-, set⟩ | ⟨setf, -⟩)
    · bv_omega
    · exact set operands
    · bv_omega
  | operandBitsSet row hop operands => exact iff_of_true ⟨_, rfl⟩ (.inr (.inl ⟨hop ▸ chipCommands_op row, operands⟩))
  | setf hop rsv => simp [hop, rsv]
  | reservedBitsSet hop rsv => exact iff_of_true ⟨_, rfl⟩ (.inr (.inr ⟨hop, rsv⟩))
  | undefinedOp hop => exact iff_of_true ⟨_, rfl⟩ (.inl hop)

/-- A word the decoder rejects ends with ILLEGAL_COMMAND (R76, R201). -/
theorem runWord_of_decode_error {w : Word} {e : IllegalWord} (hd : decode w = .error e) (s : State) :
    runWord exec w s = .next ((s.setResult codeIllegal).reply .written) := by
  rw [runWord, hd]
  rfl

/-- Each of the six unknown field types ends with UNKNOWN_FIELD (R151). -/
theorem exec_setfOf_unknown {ft : BitVec 4} (unknown : 10 ≤ ft.toNat) (v : Int) (s : State) :
    exec (setfOf ft v) s = .next (s.setResult codeUnknown) := by
  have bound := ft.isLt
  interval_cases h : ft.toNat <;> rw [setfOf, h] <;> rfl

/-- Settles O3: `decode_error_iff`, and then the step of a word from what the decoder answers to it. -/
theorem illegalWordsExactly : Obligations.IllegalWordsExactly := by
  refine ⟨decode_error_iff, fun w s illegal => ?_, fun w s hop rsv unknown => ?_⟩
  · obtain ⟨e, hd⟩ := (decode_error_iff w).mpr illegal
    exact runWord_of_decode_error hd s
  · have hd := decode_of_setf ((shiftRight_eq_iff w 5#4).mp hop) ((and_reservedMask_eq_zero w).mp rsv)
    exact runWord_of_decode hd (exec_setfOf_unknown unknown _ s)

end Sys2Proof.Machine
end

section
/-! PROOFS. The opcode map against the decoder (30_encoding.md R84): its rows in the decoder's two groups of commands, and
what a row covers, O4. -/
namespace Sys2Proof.Machine

/-- The row of a command without operands. -/
def chipRow (c : BitVec 4 × Instr) : OpcodeRow := ⟨c.2.mnemonic, chipWord c.1, 0xFFFFFFFF⟩

/-- The row of `SETF` with field type `ft`. -/
def setfRow (ft : BitVec 4) : OpcodeRow := ⟨(setfOf ft 0).mnemonic, wordOfFields 5#4 ft 0#8 0#16, 0xFFFF0000⟩

theorem opcodeMap_eq :
    opcodeMap = chipCommands.map chipRow ++ (List.finRange 16).map fun k => setfRow (.ofFin k) := by decide

theorem mem_opcodeMap_iff (r : OpcodeRow) :
    r ∈ opcodeMap ↔ (∃ c ∈ chipCommands, chipRow c = r) ∨ ∃ ft, setfRow ft = r := by
  rw [opcodeMap_eq, List.mem_append, List.mem_map, List.mem_map]
  refine or_congr_right ⟨?_, ?_⟩
  · rintro ⟨k, -, rfl⟩
    exact ⟨_, rfl⟩
  · rintro ⟨ft, rfl⟩
    exact ⟨ft.toFin, List.mem_finRange _, rfl⟩

theorem chipRow_covers_iff (c : BitVec 4 × Instr) (w : Word) : (chipRow c).covers w = true ↔ w = chipWord c.1 := by
  have mask : w &&& 0xFFFFFFFF = w := BitVec.and_allOnes
  rw [OpcodeRow.covers, chipRow, mask, beq_iff_eq]

theorem setfRow_covers_iff (ft : BitVec 4) (w : Word) :
    (setfRow ft).covers w = true ↔ cmdOp w = 5#4 ∧ cmdFt w = ft ∧ cmdRsv w = 0#8 := by
  simp [OpcodeRow.covers, setfRow, and_setfMask, wordOfFields_inj]

theorem exists_row_of_decode {w : Word} {i : Instr} (hd : decode w = .ok i) :
    ∃ r ∈ opcodeMap, r.covers w = true ∧ r.mnemonic = i.mnemonic := by
  have c := decode_cases w
  rw [hd] at c
  cases c with
  | @chip op _ row hop operands =>
    exact ⟨chipRow (op, i), (mem_opcodeMap_iff _).mpr (.inl ⟨_, row, rfl⟩),
      (chipRow_covers_iff _ w).mpr (eq_chipWord hop operands), rfl⟩
  | setf hop rsv =>
    exact ⟨setfRow (cmdFt w), (mem_opcodeMap_iff _).mpr (.inr ⟨_, rfl⟩), (setfRow_covers_iff _ w).mpr ⟨hop, rfl, rsv⟩,
      mnemonic_setfOf _ _ _⟩

theorem decode_of_covers {w : Word} {r : OpcodeRow} (hr : r ∈ opcodeMap) (covered : r.covers w = true) :
    ∃ i, decode w = .ok i ∧ i.mnemonic = r.mnemonic := by
  obtain ⟨⟨op, i⟩, row, rfl⟩ | ⟨ft, rfl⟩ := (mem_opcodeMap_iff r).mp hr
  · obtain rfl := (chipRow_covers_iff _ w).mp covered
    exact ⟨i, decode_chipWord row, rfl⟩
  · obtain ⟨hop, rfl, rsv⟩ := (setfRow_covers_iff ft w).mp covered
    exact ⟨_, decode_of_setf hop rsv, mnemonic_setfOf _ _ _⟩

/-- Settles O4: a word no row covers does not decode, so it is one of the illegal words by `decode_error_iff`. -/
theorem opcodeMapIsDecoder : Obligations.OpcodeMapIsDecoder := by
  refine ⟨fun w i => exists_row_of_decode, fun w r => decode_of_covers, fun w uncovered => ?_⟩
  cases hd : decode w with
  | ok i =>
    obtain ⟨r, hr, covered, -⟩ := exists_row_of_decode hd
    exact absurd covered (ne_true_of_eq_false (uncovered r hr))
  | error e => exact (decode_error_iff w).mp ⟨e, hd⟩

end Sys2Proof.Machine
end

section
/-! PROOFS. The assembler (30_encoding.md R72, R79): the word of a field's `SETF` as the rule writes it, O6. -/
namespace Sys2Proof.Machine

/-- The field type of a field: its place in the table of R72. -/
def fieldType (f : Field) : BitVec 4 := BitVec.ofNat 4 (Field.all.idxOf f)

theorem setfCommand_eq_setfOf (f : Field) (v : Int) : setfCommand f v = setfOf (fieldType f) v := by
  cases f <;> rfl

theorem shiftLeft_fieldType (f : Field) :
    BitVec.ofNat 32 (Field.all.idxOf f) <<< 24 = wordOfFields 0#4 (fieldType f) 0#8 0#16 := by
  cases f <;> decide

/-- `value & 0xFFFF` of the 32-bit value is VAL, the three fields above it 0. -/
theorem ofInt_and_valMask (v : Int) : BitVec.ofInt 32 v &&& 0xFFFF#32 = wordOfFields 0#4 0#4 0#8 (valBits v) := by
  have mask : 0xFFFF#32 = wordOfFields 0#4 0#4 0#8 (.allOnes 16) := by decide
  have low : cmdVal (BitVec.ofInt 32 v) = valBits v := by
    apply BitVec.eq_of_toNat_eq
    simp only [cmdVal, valBits, BitVec.extractLsb'_toNat, BitVec.toNat_ofInt, Nat.shiftRight_zero]
    omega
  simp only [mask, and_wordOfFields, low, BitVec.and_allOnes, BitVec.and_zero]

theorem setfWord_fieldType (f : Field) (v : Int) : setfWord (fieldType f) v =
    (0x5#32 <<< 28) ||| (BitVec.ofNat 32 (Field.all.idxOf f) <<< 24) ||| (BitVec.ofInt 32 v &&& 0xFFFF#32) := by
  have op : 0x5#32 <<< 28 = wordOfFields 5#4 0#4 0#8 0#16 := by decide
  rw [op, shiftLeft_fieldType, ofInt_and_valMask, wordOfFields_or, wordOfFields_or]
  simp [setfWord]

theorem assemble_setfOf (ft : BitVec 4) (v : Int) :
    assemble (setfOf ft v) = if valueFits v then some (setfWord ft v) else none := by
  rw [assemble, wellFormed_setfOf, encode_setfOf]

/-- Settles O6: `assemble_setfOf` at the field's type, with the word put together by `setfWord_fieldType`. -/
theorem assemblerWord : Obligations.AssemblerWord := by
  intro f v
  rw [setfCommand_eq_setfOf, assemble_setfOf, ← setfWord_fieldType]
  constructor
  · intro fits
    exact if_pos ((valueFits_iff v).mpr fits)
  · intro outside
    exact if_neg (mt (valueFits_iff v).mp (by omega))

end Sys2Proof.Machine
end

section
/-! PROOFS. What INIT and CLR transmit in turn (30_encoding.md R81, R82, 44_chip_commands.md R190, R191), O36. -/
namespace Sys2Proof.Machine

/-- The live buffer after a whole-buffer write (41_display_memory.md R120). -/
theorem State.dmGet_writeBelow (f : Nat → Byte) (s : State) :
    (s.writeBelow f s.config.n).dmGet = (List.range s.config.n).map f := by
  rw [State.dmGet, (State.WritesDm.refl.writeBelow f _).config_eq]
  refine List.map_congr_left fun i hi => ?_
  rw [State.readDm_writeBelow f le_rfl, if_pos (List.mem_range.mp hi)]

theorem State.dmGet_dmClearAll (s : State) : s.dmClearAll.dmGet = List.replicate s.config.n 0x00 :=
  (s.dmGet_writeBelow _).trans (by simp)

/-- CLR: Display Memory cleared, then the data frame of N zero bytes (R191). -/
theorem execClr_eq (s : State) : execClr s = .next
    ((s.dmClearAll.afterEvents (dataFrame s.config (List.replicate s.config.n 0x00))).setResult codeOk) := by
  have config : s.dmClearAll.config = s.config := (State.WritesDm.refl.writeBelow _ _).config_eq
  rw [execClr, State.transfer_eq, State.dmGet_dmClearAll, config]
  rfl

/-- Settles O36: the closed forms of the two commands, one after the other; INIT keeps the configuration, and clearing
emits nothing. -/
theorem initThenClrTransmits : Obligations.InitThenClrTransmits := by
  intro s
  refine ⟨_, _, execInit_eq s, execClr_eq _, ?_⟩
  have quiet (t : State) : t.dmClearAll.trace = t.trace := (State.WritesDm.refl.writeBelow _ _).trace_eq
  simp [quiet, State.config]

end Sys2Proof.Machine
end

section
/-! PROOFS. The line primitives, a start, a stop and a byte on the wire (40_bus_protocol.md R100 to R106, R114, R116),
what a receiver sees of each (R110, R113), and the lines each leaves, O37 to O40 and O43. -/
namespace Sys2Proof.Machine

/-- Settles O37: each primitive is its record update by definition. -/
theorem linePrimitives : Obligations.LinePrimitives := fun _ _ _ => ⟨rfl, rfl, rfl, rfl⟩

/-- Settles O38: the closed form of a start, and its observation computed from each of the four entry levels. -/
theorem busStartSequence : Obligations.BusStartSequence :=
  ⟨State.busStart_eq, fun _ => ⟨rfl, rfl, rfl, rfl⟩⟩

/-- Settles O39: the closed form of a stop, and its observation computed from the two entry levels with CLK low. -/
theorem busStopSequence : Obligations.BusStopSequence :=
  ⟨State.busStop_eq, fun _ => ⟨rfl, rfl⟩⟩

theorem State.afterEvents_atRest (es : List Event) (s : State) : (s.afterEvents es).AtRest := ⟨rfl, rfl⟩

/-- Settles O43: every bus operation is an `afterEvents`. -/
theorem primitivesLeaveLinesLow : Obligations.PrimitivesLeaveLinesLow := by
  intro s v p clk dat
  rw [State.busStart_eq, State.busStop_eq, State.sendByte_eq, State.writeTransaction_eq, State.transfer_eq]
  have low (es : List Event) : (s.afterEvents es).AtRest := s.afterEvents_atRest es
  exact ⟨low _, low _, low _, low _, low _, ⟨rfl, rfl⟩, ⟨rfl, rfl⟩⟩

/-- The ack slot makes one clock pulse with DAT low, after the fall of a clock that was high. -/
theorem observe_ackCell (c : Config) (l : Lines) :
    observe c l (ackCell c) = l.sight ⟨false, l.dat⟩ ++ [Sight.rise false, .fall] := by
  obtain ⟨_ | _, _ | _⟩ := l <;> rfl

/-- A bit cell makes the rise of the clock with the bit on DAT, after the fall of a clock that was high. -/
theorem observe_bitCell (c : Config) (l : Lines) (b : Bool) :
    observe c l (bitCell b) = l.sight ⟨false, l.dat⟩ ++ [Sight.rise b] := by
  obtain ⟨_ | _, _ | _⟩ := l <;> cases b <;> rfl

/-- The clock that a bit leaves high falls at the start of the next bit or of the ack slot. -/
theorem observe_bitCells_ackCell (c : Config) (bits : List Bool) (l : Lines) :
    observe c l (bits.flatMap bitCell ++ ackCell c) =
      l.sight ⟨false, l.dat⟩ ++ (bits.flatMap (fun b => [Sight.rise b, .fall]) ++ [Sight.rise false, .fall]) := by
  induction bits generalizing l with
  | nil => exact observe_ackCell c l
  | cons b bits ih =>
    have high : replay c l (bitCell b) = ⟨true, b⟩ := rfl
    have fall : Lines.sight ⟨true, b⟩ ⟨false, b⟩ = [.fall] := rfl
    rw [List.flatMap_cons, List.append_assoc, observe_append, observe_bitCell, high, ih, fall]
    simp

/-- What a receiver sees of a byte cell from any entry levels (R110). -/
theorem observe_byteCell (c : Config) (l : Lines) (v : Byte) :
    observe c l (byteCell c v) = l.sight ⟨false, l.dat⟩ ++ byteSights v := by
  have low : Lines.sight ⟨false, l.dat⟩ ⟨false, l.dat⟩ = [] := rfl
  rw [byteCell, observe, Lines.after, observe_bitCells_ackCell, low]
  rfl

theorem replay_byteCell (c : Config) (l : Lines) (v : Byte) : replay c l (byteCell c v) = ⟨false, false⟩ := by
  rw [byteCell, ← List.cons_append, replay_append]
  rfl

/-- Only a rise or a fall of the clock can be seen of a byte cell: DAT changes while CLK is low. -/
theorem rise_or_fall_of_mem_observe_byteCell {c : Config} {l : Lines} {v : Byte} {x : Sight}
    (h : x ∈ observe c l (byteCell c v)) : (∃ b, x = .rise b) ∨ x = .fall := by
  rw [observe_byteCell, List.mem_append] at h
  rcases h with entry | cell
  · obtain ⟨_ | _, _⟩ := l
    · exact absurd entry List.not_mem_nil
    · exact .inr (List.mem_singleton.mp entry)
  · simp only [byteSights, List.mem_append, List.mem_flatMap, List.mem_cons, List.not_mem_nil, or_false] at cell
    rcases cell with ⟨b, -, rise | fall⟩ | rise | fall
    · exact .inl ⟨b, rise⟩
    · exact .inr fall
    · exact .inl ⟨false, rise⟩
    · exact .inr fall

/-- Settles O40: the events are the byte cell written out, and a start or a stop condition is neither a rise nor a fall
of the clock. -/
theorem sendByteSequence : Obligations.SendByteSequence := by
  constructor
  · intro v s
    exact ⟨byteCell s.config v, State.sendByte_eq v s, rfl, rfl⟩
  · intro c v l
    constructor <;> intro h <;> simpa using rise_or_fall_of_mem_observe_byteCell h

end Sys2Proof.Machine
end

section
/-! PROOFS. The transaction and the transfer (40_bus_protocol.md R107 to R109), and what a receiver sees of a whole
frame (R110, R113), O41 and O42. -/
namespace Sys2Proof.Machine

theorem length_byteCell (c : Config) (v : Byte) : (byteCell c v).length = 33 := rfl

theorem length_frameEvents (c : Config) (p : List Byte) : (frameEvents c p).length = 16 + 33 * p.length := by
  have start : (startCell c).length = 8 := rfl
  have stop : (stopCell c).length = 8 := rfl
  have bytes : (p.flatMap (byteCell c)).length = 33 * p.length := by
    simp [List.length_flatMap, length_byteCell, mul_comm]
  rw [frameEvents, List.length_append, List.length_append, start, bytes, stop]
  omega

theorem waitTotal_nil : waitTotal [] = 0 := rfl

theorem waitTotal_cons (e : Event) (es : List Event) : waitTotal (e :: es) = e.us + waitTotal es := List.sum_cons

theorem waitTotal_append (es es' : List Event) : waitTotal (es ++ es') = waitTotal es + waitTotal es' := by
  simp [waitTotal]

theorem waitTotal_bitCells (bits : List Bool) : waitTotal (bits.flatMap bitCell) = 0 := by
  induction bits with
  | nil => rfl
  | cons b bits ih =>
    rw [List.flatMap_cons, waitTotal_append, ih]
    rfl

/-- A byte cell waits in its ack slot alone (R116). -/
theorem waitTotal_byteCell (c : Config) (v : Byte) : waitTotal (byteCell c v) = 3 * c.unitUs + c.ackUs := by
  rw [byteCell, waitTotal_cons, waitTotal_append, waitTotal_bitCells]
  simp only [ackCell, waitTotal_cons, waitTotal_nil, Event.us]
  omega

theorem waitTotal_byteCells (c : Config) (p : List Byte) :
    waitTotal (p.flatMap (byteCell c)) = p.length * (3 * c.unitUs + c.ackUs) := by
  induction p with
  | nil => simp [waitTotal_nil]
  | cons v p ih =>
    rw [List.flatMap_cons, waitTotal_append, waitTotal_byteCell, ih, List.length_cons]
    ring

theorem waitTotal_frameEvents (c : Config) (p : List Byte) :
    waitTotal (frameEvents c p) = 7 * c.unitUs + p.length * (3 * c.unitUs + c.ackUs) := by
  have start : waitTotal (startCell c) = 4 * c.unitUs := by
    simp only [startCell, waitTotal_cons, waitTotal_nil, Event.us]
    omega
  have stop : waitTotal (stopCell c) = 3 * c.unitUs := by
    simp only [stopCell, waitTotal_cons, waitTotal_nil, Event.us]
    omega
  rw [frameEvents, waitTotal_append, waitTotal_append, start, waitTotal_byteCells, stop]
  omega

/-- Settles O41: a transaction is a frame of two more bytes than its payload, and the frame's counts are those of its
parts. -/
theorem transactionAndTransferCounts : Obligations.TransactionAndTransferCounts := by
  intro s p
  rw [State.writeTransaction_eq]
  have parts : dataFrame s.config p = startCell s.config ++ (byteCell s.config s.config.deviceAddr
      ++ (byteCell s.config s.config.regSel ++ (p.flatMap (byteCell s.config) ++ stopCell s.config))) := by
    simp only [dataFrame, frameEvents, List.flatMap_cons, List.append_assoc]
  exact ⟨dataFrame s.config p, rfl, parts, rfl, rfl, length_byteCell s.config, length_frameEvents s.config _,
    waitTotal_frameEvents s.config _, State.afterEvents_atRest _ s, rfl⟩

/-- Byte cells entered with both lines low show their bytes one after the other, since each leaves the lines low
again. -/
theorem observe_byteCells (c : Config) (p : List Byte) :
    observe c ⟨false, false⟩ (p.flatMap (byteCell c)) = p.flatMap byteSights := by
  induction p with
  | nil => rfl
  | cons v p ih =>
    rw [List.flatMap_cons, observe_append, observe_byteCell, replay_byteCell, ih]
    rfl

theorem replay_byteCells (c : Config) (p : List Byte) :
    replay c ⟨false, false⟩ (p.flatMap (byteCell c)) = ⟨false, false⟩ := by
  induction p with
  | nil => rfl
  | cons v p ih => rw [List.flatMap_cons, replay_append, replay_byteCell, ih]

/-- What a receiver sees of a frame entered with both lines low (R110). -/
theorem observe_frameEvents (c : Config) (p : List Byte) :
    observe c ⟨false, false⟩ (frameEvents c p) = frameSights p := by
  have start : replay c ⟨false, false⟩ (startCell c) = ⟨false, false⟩ := rfl
  rw [frameEvents, observe_append, start, observe_append, observe_byteCells, replay_byteCells]
  rfl

/-- Settles O42: a frame's events are `frameEvents`, of which a transaction's are one case. -/
theorem receiverSeesFrame : Obligations.ReceiverSeesFrame := by
  rintro s p ⟨clkLow, datLow⟩
  have low : s.lines = ⟨false, false⟩ := by rw [State.lines, clkLow, datLow]
  rw [State.writeTransaction_eq, State.sendFrame_eq, low]
  exact ⟨⟨_, rfl, observe_frameEvents s.config p⟩, ⟨_, rfl, observe_frameEvents s.config _⟩⟩

end Sys2Proof.Machine
end

section
/-! PROOFS. The whole-buffer operations (41_display_memory.md R120 to R123): what the live buffer reads after each, and
that each writes Display Memory and nothing else, O56. -/
namespace Sys2Proof.Machine

/-- DEFAULT has `N` bytes (00_scope.md R6). -/
theorem State.length_defaultPattern (s : State) : s.config.defaultPattern.length = s.config.n := by
  obtain ⟨-, -, length, -⟩ := (admitted_iff s.config).mp s.cfg.ok
  exact length

/-- The reset bytes in index order are DEFAULT: it has one byte for each index of Display Memory. -/
theorem State.map_resetByte_range (s : State) :
    (List.range s.config.n).map (resetByte s.config) = s.config.defaultPattern := by
  rw [← s.length_defaultPattern]
  refine List.ext_getElem (by simp) fun i _ hi => ?_
  rw [List.getElem_map, List.getElem_range]
  exact List.getD_eq_getElem _ _ hi

theorem State.dmGet_dmFillAll (s : State) : s.dmFillAll.dmGet = List.replicate s.config.n 0xFF :=
  (s.dmGet_writeBelow _).trans (by simp)

theorem State.dmGet_dmInitDefault (s : State) : s.dmInitDefault.dmGet = s.config.defaultPattern :=
  (s.dmGet_writeBelow _).trans s.map_resetByte_range

/-- Writes of Display Memory change no latch, no event, not RESULT, not the configuration and not the host port. -/
theorem State.WritesDm.frame {s t : State} (h : s.WritesDm t) :
    t.lines = s.lines ∧ t.trace = s.trace ∧ t.result = s.result ∧ s.SamePort t := by
  rw [h.eq_with_dm]
  exact ⟨rfl, rfl, rfl, rfl, rfl, rfl⟩

/-- Settles O56: what each operation leaves to read is the closed form of its loop, and all three are writes of Display
Memory. -/
theorem wholeBufferOperations : Obligations.WholeBufferOperations := by
  intro s
  refine ⟨s.dmGet_dmClearAll, s.dmGet_dmFillAll, s.dmGet_dmInitDefault, fun t ht => State.WritesDm.frame ?_⟩
  have start : s.WritesDm s := .refl
  simp only [List.mem_cons, List.not_mem_nil, or_false] at ht
  rcases ht with rfl | rfl | rfl <;> exact start.writeBelow _ _

end Sys2Proof.Machine
end

section
/-! PROOFS. The digits of a decimal decomposition (42_segment_tables.md R134, R135), O57. -/
namespace Sys2Proof.Machine

theorem decompose2_spells {v : Nat} (hv : v ≤ 99) :
    (decompose2 v).1 ≤ 9 ∧ (decompose2 v).2 ≤ 9 ∧ 10 * (decompose2 v).1 + (decompose2 v).2 = v := by
  simp only [decompose2]
  omega

theorem decompose3_spells {v : Nat} (hv : v ≤ 999) :
    (decompose3 v).1 ≤ 9 ∧ (decompose3 v).2.1 ≤ 9 ∧ (decompose3 v).2.2 ≤ 9
      ∧ 100 * (decompose3 v).1 + 10 * (decompose3 v).2.1 + (decompose3 v).2.2 = v := by
  simp only [decompose3]
  omega

/-- Settles O57: division and remainder by the powers of ten. -/
theorem decimalDecomposition : Obligations.DecimalDecomposition :=
  ⟨fun _ => decompose2_spells, fun _ => decompose3_spells⟩

end Sys2Proof.Machine
end

section
/-! PROOFS. The merges of Table A patterns (42_segment_tables.md R136, R137): which bits of its byte a merge leaves to the
pattern and which to the old byte, O54. -/
namespace Sys2Proof.Machine

section
variable {keep val : Byte} {i n : Nat}

/-- Bits outside the keep mask of a merge are the value's. -/
theorem extract_merge_of_cleared (cleared : keep.extractLsb' i n = 0) (old : Byte) :
    ((old &&& keep) ||| val).extractLsb' i n = val.extractLsb' i n := by
  rw [BitVec.extractLsb'_or, BitVec.extractLsb'_and, cleared]
  exact (congrArg (· ||| _) BitVec.and_zero).trans BitVec.zero_or

/-- Bits inside the keep mask of a merge are the old byte's, since the value has none there (20_memory.md R62). -/
theorem extract_merge_of_kept (kept : keep.extractLsb' i n = BitVec.allOnes n) (disjoint : val &&& keep = 0)
    (old : Byte) : ((old &&& keep) ||| val).extractLsb' i n = old.extractLsb' i n :=
  calc ((old &&& keep) ||| val).extractLsb' i n
    _ = (((old &&& keep) ||| val) &&& keep).extractLsb' i n := by
      rw [BitVec.extractLsb'_and, kept, BitVec.and_allOnes]
    _ = (old &&& keep).extractLsb' i n := by rw [merge_and_keep disjoint]
    _ = old.extractLsb' i n := by rw [BitVec.extractLsb'_and, kept, BitVec.and_allOnes]

end

theorem State.keepsBytes_putA (s : State) (i k : Nat) : s.KeepsBytes (s.putA i k) [i] := s.keepsBytes_mergeByte i _ _

theorem State.keepsBytes_orA (s : State) (i k : Nat) : s.KeepsBytes (s.orA i k) [i] := s.keepsBytes_orByte i _

/-- R136: `PutA` keeps bit 7 alone, and the pattern has no bit there (00_scope.md R7). -/
theorem State.showsA_putA {s : State} {i k : Nat} (hi : i < s.config.n) (hk : k ≤ 10) : s.ShowsA (s.putA i k) i k := by
  have merged : (s.putA i k).readDm i = (s.readDm i &&& 0x80) ||| tableA s.config k := State.readDm_writeDm_same hi _
  rw [State.ShowsA, merged]
  exact ⟨extract_merge_of_cleared (by decide) _, extract_merge_of_kept (by decide) (tableA_and_keep s hk) _⟩

theorem State.readDm_orA_same {s : State} {i : Nat} (hi : i < s.config.n) (k : Nat) :
    (s.orA i k).readDm i = s.readDm i ||| tableA s.config k := State.readDm_writeDm_same hi _

/-- R137: the pattern has no bit 7 (00_scope.md R7), so `OrA` keeps it. -/
theorem State.getLsbD_orA_seven {s : State} {i k : Nat} (hi : i < s.config.n) (hk : k ≤ 10) :
    ((s.orA i k).readDm i).getLsbD 7 = (s.readDm i).getLsbD 7 := by
  obtain ⟨-, topBits⟩ := admittedTablesAndSizes.2 s
  rw [State.readDm_orA_same hi, BitVec.getLsbD_or, topBits k hk, Bool.or_false]

/-- R137: the second `OrA` finds the bits of its pattern set. -/
theorem State.readDm_orA_orA {s : State} {i : Nat} (hi : i < s.config.n) (k j : Nat) :
    ((s.orA i k).orA i k).readDm j = (s.orA i k).readDm j := by
  by_cases hj : j = i
  · subst hj
    have again : ((s.orA j k).orA j k).readDm j = (s.orA j k).readDm j ||| tableA s.config k :=
      State.readDm_orA_same (s := s.orA j k) hi k
    rw [again, State.readDm_orA_same hi, BitVec.or_assoc, BitVec.or_self]
  · exact (s.orA i k).keepsBytes_orA i k j (by simpa using hj)

/-- Settles O54: the clauses on bit 7 need the bound on the table index, within which no pattern has that bit. -/
theorem tableAMerges : Obligations.TableAMerges := fun s i k hi hk =>
  ⟨State.showsA_putA hi hk, s.keepsBytes_putA i k, State.readDm_orA_same hi k, State.getLsbD_orA_seven hi hk,
    s.keepsBytes_orA i k, State.readDm_orA_orA hi k⟩

end Sys2Proof.Machine
end

section
/-! PROOFS. The merge of two Table B digits into three bytes (42_segment_tables.md R138, R139): where the bits of its
patterns go, and that bit 3 goes nowhere, O55. -/
namespace Sys2Proof.Machine

/-- Three distinct bytes of a Display Memory of `n`, as `PutB2` takes them (R138). -/
structure DistinctBelow (n a b c : Nat) : Prop where
  ltA : a < n
  ltB : b < n
  ltC : c < n
  neAB : a ≠ b
  neAC : a ≠ c
  neBC : b ≠ c

/-- What `PutB2` leaves in each of its three bytes. -/
theorem State.putB2_bytes {s : State} {a b c : Nat} (h : DistinctBelow s.config.n a b c) (d u : Nat) :
    (s.putB2 a b c d u).readDm a = (s.readDm a &&& 0xF0) ||| (tableB s.config (digitIndex d) >>> 4)
    ∧ (s.putB2 a b c d u).readDm b =
        (s.readDm b &&& 0x10) ||| middleBits (tableB s.config (digitIndex d)) (tableB s.config (digitIndex u))
    ∧ (s.putB2 a b c d u).readDm c = (s.readDm c &&& 0x1F) ||| ((tableB s.config (digitIndex u) &&& 0x07) <<< 5) := by
  obtain ⟨ltA, ltB, ltC, neAB, neAC, neBC⟩ := h
  have read (j : Nat) := State.readDm_putB2 ltA ltB ltC neAB neAC neBC d u j
  refine ⟨?_, ?_, ?_⟩
  · rw [read, if_pos rfl]
  · rw [read, if_neg neAB.symm, if_pos rfl]
  · rw [read, if_neg neAC.symm, if_neg neBC.symm, if_pos rfl]

theorem extract_highBits (pt : Byte) : (pt >>> 4).extractLsb' 0 4 = pt.extractLsb' 4 4 := by
  ext k hk
  interval_cases k <;> simp

theorem extract_middleBits_tens (pt pu : Byte) : (middleBits pt pu).extractLsb' 5 3 = pt.extractLsb' 0 3 := by
  unfold middleBits
  ext k hk
  interval_cases k <;> simp

theorem extract_middleBits_units (pt pu : Byte) : (middleBits pt pu).extractLsb' 0 4 = pu.extractLsb' 4 4 := by
  unfold middleBits
  ext k hk
  interval_cases k <;> simp

theorem extract_lowBits (pu : Byte) : ((pu &&& 0x07) <<< 5).extractLsb' 5 3 = pu.extractLsb' 0 3 := by
  ext k hk
  interval_cases k <;> simp

/-- R138's table: each byte takes the patterns' bits where its keep mask is 0 and its own where the mask is 1. -/
theorem State.showsB2_putB2 {s : State} {a b c : Nat} (h : DistinctBelow s.config.n a b c) (d u : Nat) :
    s.ShowsB2 (s.putB2 a b c d u) a b c d u := by
  obtain ⟨byteA, byteB, byteC⟩ := State.putB2_bytes h d u
  rw [State.ShowsB2, byteA, byteB, byteC]
  refine ⟨?_, ?_, ?_, ?_, ?_, ?_, ?_⟩
  · exact (extract_merge_of_cleared (by decide) _).trans (extract_highBits _)
  · exact extract_merge_of_kept (by decide) (highBits_and_keep _) _
  · exact (extract_merge_of_cleared (by decide) _).trans (extract_middleBits_tens _ _)
  · exact extract_merge_of_kept (by decide) (middleBits_and_keep _ _) _
  · exact (extract_merge_of_cleared (by decide) _).trans (extract_middleBits_units _ _)
  · exact (extract_merge_of_cleared (by decide) _).trans (extract_lowBits _)
  · exact extract_merge_of_kept (by decide) (lowBits_and_keep _) _

theorem State.KeepsBytes.trans {s t u : State} {written written' : List Nat} (h : s.KeepsBytes t written)
    (h' : t.KeepsBytes u written') : s.KeepsBytes u (written ++ written') := by
  intro i hi
  obtain ⟨out, out'⟩ := not_or.mp (mt List.mem_append.mpr hi)
  exact (h' i out').trans (h i out)

theorem State.keepsBytes_putB2 (s : State) (a b c d u : Nat) : s.KeepsBytes (s.putB2 a b c d u) [a, b, c] :=
  ((s.keepsBytes_mergeByte a _ _).trans (State.keepsBytes_mergeByte _ b _ _)).trans
    (State.keepsBytes_mergeByte _ c _ _)

/-- The three low bits of a pattern do not hold its bit 3 (R139). -/
theorem lowBits_xor_bit3 (p : Byte) : (p ^^^ 0x08) &&& 0x07 = p &&& 0x07 := by
  ext k hk
  interval_cases k <;> simp

/-- Nor does its upper half (R139). -/
theorem highBits_xor_bit3 (p : Byte) : (p ^^^ 0x08) >>> 4 = p >>> 4 := by
  rw [BitVec.ushiftRight_xor_distrib]
  exact BitVec.xor_zero

/-- Settles O55: the merge byte by byte, and `PutB2` takes of a pattern only its three low bits and its upper half. -/
theorem tableBMerge : Obligations.TableBMerge := by
  constructor
  · intro s a b c d u ltA ltB ltC neAB neAC neBC _ _
    exact ⟨State.showsB2_putB2 ⟨ltA, ltB, ltC, neAB, neAC, neBC⟩ d u, s.keepsBytes_putB2 a b c d u⟩
  · intro pt pu
    unfold middleBits
    rw [lowBits_xor_bit3, highBits_xor_bit3, highBits_xor_bit3]
    exact ⟨rfl, rfl, rfl⟩

end Sys2Proof.Machine
end

section
/-! PROOFS. The value 0 in a Table B field (42_segment_tables.md R141): what the three fields write of the patterns, whatever
stood in their bytes, O52. -/
namespace Sys2Proof.Machine

/-- A `SETF` whose value is in range merges, transfers and completes (43_field_encoder.md R150). -/
theorem setField_of_inRange {f : Field} {v : Int} (inRange : outOfRange f v = false) (op : Int → State → State)
    (s : State) : setField f op v s = .next ((op v s).transfer.setResult codeOk) := by
  rcases setField_cases f op v s with ⟨out, -⟩ | ⟨-, completed⟩
  · exact absurd out (ne_true_of_eq_false inRange)
  · exact completed

/-- Neither the transfer nor the result code changes a byte of Display Memory. -/
theorem State.readDm_transfer_setResult (s : State) (code : BitVec 2) (i : Nat) :
    (s.transfer.setResult code).readDm i = s.readDm i := by
  rw [State.transfer_eq]
  rfl

/-- R8's rows of the three Table B fields: each has three distinct bytes. -/
theorem nodup_tableB_of_shaped {l : Layout} (h : l.shaped = true) :
    [l.hourA, l.hourB, l.hourC].Nodup ∧ [l.minA, l.minB, l.minC].Nodup ∧ [l.scoreA, l.scoreB, l.scoreC].Nodup := by
  simp only [Layout.shaped, Bool.and_eq_true, decide_eq_true_eq] at h
  obtain ⟨⟨⟨⟨⟨⟨⟨⟨-, hour⟩, minute⟩, score⟩, -⟩, -⟩, -⟩, -⟩, -⟩ := h
  exact ⟨hour, minute, score⟩

/-- The three bytes of a footprint of the shape R163 gives to the Table B fields. -/
theorem State.distinctBelow_of_footprint {s : State} {f : Field} {a b c : Nat}
    (shape : s.config.layout.footprint f = [(a, 0x0F), (b, 0xEF), (c, 0xE0)]) (nodup : [a, b, c].Nodup) :
    DistinctBelow s.config.n a b c := by
  obtain ⟨below, -⟩ := admittedLayout.1 s f
  obtain ⟨ltA, ltB, ltC⟩ : a < s.config.n ∧ b < s.config.n ∧ c < s.config.n := by simpa [shape] using below
  obtain ⟨⟨neAB, neAC⟩, neBC⟩ : (a ≠ b ∧ a ≠ c) ∧ b ≠ c := by simpa using nodup
  exact ⟨ltA, ltB, ltC, neAB, neAC, neBC⟩

/-- The bits of a Table B field in its bytes `a`, `b`, `c` are those of entry 1 in both digit positions (R141). -/
def State.ShowsEntryOne (s t : State) (a b c : Nat) : Prop :=
  t.readDm a &&& 0x0F = tableB s.config 1 >>> 4
    ∧ t.readDm b &&& 0xEF = ((tableB s.config 1 &&& 0x07) <<< 5) ||| (tableB s.config 1 >>> 4)
    ∧ t.readDm c &&& 0xE0 = (tableB s.config 1 &&& 0x07) <<< 5

/-- The digits of 0 are two zeros, of index 1, and outside its keep mask a merge leaves exactly the pattern's bits. -/
theorem State.showsEntryOne_putB2_zero {s : State} {a b c : Nat} (h : DistinctBelow s.config.n a b c) :
    s.ShowsEntryOne (s.putB2 a b c 0 0) a b c := by
  obtain ⟨byteA, byteB, byteC⟩ := State.putB2_bytes h 0 0
  rw [State.ShowsEntryOne, byteA, byteB, byteC]
  exact ⟨merge_and_not_keep (highBits_and_keep _) _, merge_and_not_keep (middleBits_and_keep _ _) _,
    merge_and_not_keep (lowBits_and_keep _) _⟩

/-- A Table B field set to 0, given its footprint and that its operation writes the digits 0 and 0 there. -/
theorem setField_zero_showsEntryOne {s : State} {f : Field} {op : Int → State → State} {a b c : Nat}
    (inRange : outOfRange f 0 = false) (digits : op 0 s = s.putB2 a b c 0 0)
    (shape : s.config.layout.footprint f = [(a, 0x0F), (b, 0xEF), (c, 0xE0)]) (nodup : [a, b, c].Nodup) :
    ∃ t, setField f op 0 s = .next t ∧ s.ShowsEntryOne t a b c := by
  refine ⟨_, setField_of_inRange inRange op s, ?_⟩
  rw [State.ShowsEntryOne]
  simp only [State.readDm_transfer_setResult, digits]
  exact State.showsEntryOne_putB2_zero (State.distinctBelow_of_footprint shape nodup)

/-- Settles O52: the hour, the minute and the score are the three fields of that shape. -/
theorem zeroShowsEntryOne : Obligations.ZeroShowsEntryOne := by
  intro s
  obtain ⟨-, -, -, shaped, -⟩ := (admitted_iff s.config).mp s.cfg.ok
  obtain ⟨hourBytes, minuteBytes, scoreBytes⟩ := nodup_tableB_of_shaped shaped
  obtain ⟨t, hour, showsT⟩ :=
    setField_zero_showsEntryOne (s := s) (f := .hour) (op := State.setHour) (by decide) rfl rfl hourBytes
  obtain ⟨u, minute, showsU⟩ :=
    setField_zero_showsEntryOne (s := s) (f := .minute) (op := State.setMinute) (by decide) rfl rfl minuteBytes
  obtain ⟨w, score, showsW⟩ :=
    setField_zero_showsEntryOne (s := s) (f := .score) (op := State.setScore) (by decide) rfl rfl scoreBytes
  exact ⟨t, u, w, hour, minute, score,
    List.forall_mem_cons.mpr ⟨showsT, List.forall_mem_cons.mpr ⟨showsU, List.forall_mem_singleton.mpr showsW⟩⟩⟩

end Sys2Proof.Machine
end

section
/-! PROOFS. A run of `MergeByte` calls at distinct bytes (20_memory.md R62): what each call leaves in its byte, and what
the run leaves alone. -/
namespace Sys2Proof.Machine

/-- `t` is `s` after the merges `calls`, byte by byte: each call's byte holds its value outside the keep mask and the
old bits inside it, and every other byte is kept (R62). -/
structure State.Merged (s t : State) (calls : List (Nat × Byte × Byte)) : Prop where
  disjoint : ∀ call ∈ calls, call.2.2 &&& call.2.1 = 0
  written : ∀ call ∈ calls, t.readDm call.1 = (s.readDm call.1 &&& call.2.1) ||| call.2.2
  kept : s.KeepsBytes t (calls.map Prod.fst)

theorem State.MergesDisjointly.tail {s t : State} {call : Nat × Byte × Byte} {calls : List (Nat × Byte × Byte)}
    (h : s.MergesDisjointly t (call :: calls)) :
    (s.mergeByte call.1 call.2.1 call.2.2).MergesDisjointly t calls := by
  obtain ⟨merged, disjoint⟩ := h
  exact ⟨merged, (List.forall_mem_cons.mp disjoint).2⟩

theorem State.WritesDm.mergesDisjointly {s u t : State} {calls : List (Nat × Byte × Byte)} (hu : s.WritesDm u)
    (h : u.MergesDisjointly t calls) : s.WritesDm t := by
  induction calls generalizing u with
  | nil =>
    obtain ⟨rfl, -⟩ := h
    exact hu
  | cons call calls ih => exact ih (hu.mergeByte _ _ _) h.tail

theorem State.MergesDisjointly.keepsBytes {s t : State} {calls : List (Nat × Byte × Byte)}
    (h : s.MergesDisjointly t calls) : s.KeepsBytes t (calls.map Prod.fst) := by
  induction calls generalizing s with
  | nil =>
    obtain ⟨rfl, -⟩ := h
    exact fun _ _ => rfl
  | cons call calls ih => exact (s.keepsBytes_mergeByte _ _ _).trans (ih h.tail)

/-- Merges at distinct bytes below N do not meet each other's bytes. -/
theorem State.MergesDisjointly.merged {s t : State} {calls : List (Nat × Byte × Byte)}
    (h : s.MergesDisjointly t calls) (nodup : (calls.map Prod.fst).Nodup)
    (below : ∀ call ∈ calls, call.1 < s.config.n) : s.Merged t calls := by
  refine ⟨h.2, ?_, h.keepsBytes⟩
  induction calls generalizing s with
  | nil => exact fun _ mem => nomatch mem
  | cons call calls ih =>
    obtain ⟨fresh, nodup⟩ := List.nodup_cons.mp nodup
    obtain ⟨ltHead, ltTail⟩ := List.forall_mem_cons.mp below
    refine List.forall_mem_cons.mpr ⟨?_, fun call' mem => ?_⟩
    · rw [h.tail.keepsBytes _ fresh, State.readDm_mergeByte ltHead, if_pos rfl]
    · have other : call'.1 ≠ call.1 := fun eq => fresh (eq ▸ List.mem_map_of_mem mem)
      rw [ih h.tail nodup ltTail call' mem, State.readDm_mergeByte ltHead, if_neg other]

/-- Outside its keep mask a merged byte shows the call's value. -/
theorem State.Merged.and_not_keep {s t : State} {calls : List (Nat × Byte × Byte)} (h : s.Merged t calls)
    {call : Nat × Byte × Byte} (mem : call ∈ calls) : t.readDm call.1 &&& ~~~call.2.1 = call.2.2 := by
  rw [h.written call mem, merge_and_not_keep (h.disjoint call mem)]

/-- `PutA(i, k)` as a merge (42_segment_tables.md R136). -/
def putACall (c : Config) (i k : Nat) : Nat × Byte × Byte := (i, 0x80, tableA c k)

/-- `OrA(i, k)` as a merge that keeps all but the bits it sets (42_segment_tables.md R137). -/
def orACall (c : Config) (i k : Nat) : Nat × Byte × Byte := (i, ~~~tableA c k, tableA c k)

/-- The three merges of `PutB2(a, b, e, t, u)` (42_segment_tables.md R138). -/
def putB2Calls (c : Config) (a b e d u : Nat) : List (Nat × Byte × Byte) :=
  let pt := tableB c (digitIndex d)
  let pu := tableB c (digitIndex u)
  [(a, 0xF0, pt >>> 4), (b, 0x10, middleBits pt pu), (e, 0x1F, (pu &&& 0x07) <<< 5)]

theorem and_not_or_self (old p : Byte) : (old &&& ~~~p) ||| p = old ||| p := by
  ext k hk
  simp only [BitVec.getElem_or, BitVec.getElem_and, BitVec.getElem_not]
  cases p[k] <;> simp

theorem State.orA_eq_mergeByte (s : State) (i k : Nat) :
    s.orA i k = s.mergeByte i (~~~tableA s.config k) (tableA s.config k) := by
  rw [State.mergeByte, and_not_or_self]
  rfl

section
variable {s t : State} {calls : List (Nat × Byte × Byte)} {i k : Nat} (h : s.Merged t calls)
include h

/-- R136: the pattern in bits 6:0, bit 7 kept. -/
theorem State.Merged.showsA (mem : putACall s.config i k ∈ calls) (hk : k ≤ 10) : s.ShowsA t i k := by
  have byte : t.readDm i = (s.readDm i &&& 0x80) ||| tableA s.config k := h.written _ mem
  rw [State.ShowsA, byte]
  exact ⟨extract_merge_of_cleared (by decide) _, extract_merge_of_kept (by decide) (tableA_and_keep s hk) _⟩

/-- R137: the byte gains the bits of the pattern and loses none. -/
theorem State.Merged.readDm_orA (mem : orACall s.config i k ∈ calls) :
    t.readDm i = s.readDm i ||| tableA s.config k :=
  (h.written _ mem).trans (and_not_or_self _ _)

end

/-- R138: the three bytes read as after `PutB2`. -/
theorem State.Merged.showsB2 {s t : State} {a b c d u : Nat} (h : s.Merged t (putB2Calls s.config a b c d u))
    (distinct : DistinctBelow s.config.n a b c) : s.ShowsB2 t a b c d u := by
  obtain ⟨byteA, byteB, byteC⟩ := State.putB2_bytes distinct d u
  obtain ⟨readA, readB, readC, -⟩ : _ ∧ _ ∧ _ ∧ _ := by
    simpa only [putB2Calls, List.forall_mem_cons] using h.written
  have shows := State.showsB2_putB2 distinct d u
  rw [State.ShowsB2, byteA, byteB, byteC] at shows
  rw [State.ShowsB2, readA, readB, readC]
  exact shows

end Sys2Proof.Machine
end

section
/-! PROOFS. The ten field operations as runs of merges (43_field_encoder.md R152 to R161), at the bytes and in the masks
of the field's footprint (R163). -/
namespace Sys2Proof.Machine

/-- The field operation of a field (R152 to R161). -/
def fieldOp : Field → Int → State → State
  | .signal => State.setSignal
  | .bell => State.setBell
  | .hour => State.setHour
  | .minute => State.setMinute
  | .score => State.setScore
  | .battery => State.setBattery
  | .temp1 => State.setTemp1
  | .temp2 => State.setTemp2
  | .humidity => State.setHumidity
  | .co2 => State.setCo2

theorem exec_setfCommand (f : Field) (v : Int) (s : State) :
    exec (setfCommand f v) s = setField f (fieldOp f) v s := by cases f <;> rfl

/-- The merges of `SetTemp` (R158). -/
def tempCalls (c : Config) (tb ub : Nat) (v : Int) : List (Nat × Byte × Byte) :=
  if v < 0 then [putACall c tb blankIndex, putACall c ub (digitIndex v.natAbs)]
  else [putACall c tb (digitIndex (v.natAbs / 10)), putACall c ub (digitIndex (v.natAbs % 10))]

/-- The merges of a field operation, in order. -/
def fieldCalls (c : Config) (v : Int) : Field → List (Nat × Byte × Byte)
  | .signal =>
    [(c.layout.sigB1, ~~~(c.layout.sigM1 ||| c.layout.sigM2 ||| c.layout.sigM3),
        tier 1 v.natAbs c.layout.sigM1 ||| tier 2 v.natAbs c.layout.sigM2 ||| tier 3 v.natAbs c.layout.sigM3),
     (c.layout.sigB4, ~~~c.layout.sigM4, tier 4 v.natAbs c.layout.sigM4),
     (c.layout.sigB5, ~~~c.layout.sigM5, tier 5 v.natAbs c.layout.sigM5)]
  | .bell => [(c.layout.bellB, ~~~c.layout.bellM, if v = 1 then c.layout.bellM else 0)]
  | .hour => putB2Calls c c.layout.hourA c.layout.hourB c.layout.hourC (v.natAbs / 10) (v.natAbs % 10)
  | .minute => putB2Calls c c.layout.minA c.layout.minB c.layout.minC (v.natAbs / 10) (v.natAbs % 10)
  | .score => putB2Calls c c.layout.scoreA c.layout.scoreB c.layout.scoreC (v.natAbs / 10) (v.natAbs % 10)
  | .battery =>
    [(c.layout.batB1, ~~~c.layout.batM1, tier 1 v.natAbs c.layout.batM1),
     (c.layout.batB2, 0xF0, batteryBars v.natAbs)]
  | .temp1 => tempCalls c c.layout.t1T c.layout.t1U v
  | .temp2 => tempCalls c c.layout.t2T c.layout.t2U v
  | .humidity =>
    [putACall c c.layout.humT (digitIndex (v.natAbs / 10)), putACall c c.layout.humU (digitIndex (v.natAbs % 10))]
  | .co2 =>
    [orACall c c.layout.co2H (digitIndex (v.natAbs / 100)),
     orACall c c.layout.co2T (digitIndex (v.natAbs / 10 % 10)),
     putACall c c.layout.co2U (digitIndex (v.natAbs % 10))]

theorem putA_putA_mergesDisjointly (s : State) (i j : Nat) {k m : Nat} (hk : k ≤ 10) (hm : m ≤ 10) :
    s.MergesDisjointly ((s.putA i k).putA j m) [putACall s.config i k, putACall s.config j m] :=
  .cons (tableA_and_keep s hk) (.cons (tableA_and_keep s hm) (.nil _))

theorem setTemp_mergesDisjointly (s : State) (tb ub : Nat) {v : Int} (admits : -9 ≤ v ∧ v ≤ 99) :
    s.MergesDisjointly (s.setTemp tb ub v) (tempCalls s.config tb ub v) := by
  have units : v < 0 → digitIndex v.natAbs ≤ 10 := by simp only [digitIndex]; omega
  have tens : digitIndex (v.natAbs / 10) ≤ 10 := by simp only [digitIndex]; omega
  unfold State.setTemp tempCalls
  split
  · exact putA_putA_mergesDisjointly s tb ub (by decide) (units ‹_›)
  · exact putA_putA_mergesDisjointly s tb ub tens (Nat.mod_lt _ (by decide))

theorem setCo2_mergesDisjointly (s : State) (v : Int) :
    s.MergesDisjointly (s.setCo2 v) (fieldCalls s.config v .co2) := by
  simp only [State.setCo2, State.orA_eq_mergeByte]
  exact .cons (BitVec.and_not_self _) (.cons (BitVec.and_not_self _)
    (.cons (tableA_and_keep s (Nat.mod_lt _ (by decide))) (.nil _)))

/-- Within its range a field operation is its merges, each with its value outside its keep mask. -/
theorem fieldOp_mergesDisjointly {f : Field} {v : Int} (admits : fieldAdmits f v) (s : State) :
    s.MergesDisjointly (fieldOp f v s) (fieldCalls s.config v f) := by
  obtain ⟨-, -, -, bitFields⟩ := maskedWrites
  obtain ⟨signal, bell, battery⟩ := bitFields s v
  cases f with
  | signal => exact signal
  | bell => exact bell
  | hour => exact putB2_mergesDisjointly s _ _ _ _ _
  | minute => exact putB2_mergesDisjointly s _ _ _ _ _
  | score => exact putB2_mergesDisjointly s _ _ _ _ _
  | battery => exact battery
  | temp1 => exact setTemp_mergesDisjointly s _ _ admits
  | temp2 => exact setTemp_mergesDisjointly s _ _ admits
  | humidity =>
    obtain ⟨low, high⟩ := admits
    exact putA_putA_mergesDisjointly s _ _ (by simp only [digitIndex, decompose2, magnitude]; omega)
      (Nat.mod_lt _ (by decide))
  | co2 => exact setCo2_mergesDisjointly s v

/-- The bytes of the merges are the bytes of the footprint. -/
theorem fieldCalls_indices (c : Config) (v : Int) (f : Field) :
    (fieldCalls c v f).map Prod.fst = (c.layout.footprint f).map Prod.fst := by
  have temp (tb ub : Nat) : (tempCalls c tb ub v).map Prod.fst = [tb, ub] := by unfold tempCalls; split <;> rfl
  cases f with
  | temp1 => exact temp _ _
  | temp2 => exact temp _ _
  | signal | bell | hour | minute | score | battery | humidity | co2 => rfl

/-- For every field but CO2 the merges rewrite the whole footprint and nothing else. -/
theorem fieldCalls_footprint (c : Config) (v : Int) {f : Field} (hf : f ≠ .co2) :
    (fieldCalls c v f).map (fun call => (call.1, ~~~call.2.1)) = c.layout.footprint f := by
  have temp (tb ub : Nat) :
      (tempCalls c tb ub v).map (fun call => (call.1, ~~~call.2.1)) = [(tb, 0x7F), (ub, 0x7F)] := by
    unfold tempCalls
    split <;> simp [putACall]
  cases f with
  | temp1 => exact temp _ _
  | temp2 => exact temp _ _
  | signal | bell | battery => simp [fieldCalls, Layout.footprint]
  | hour | minute | score => simp [fieldCalls, putB2Calls, Layout.footprint]
  | humidity => simp [fieldCalls, putACall, Layout.footprint]
  | co2 => exact absurd rfl hf

end Sys2Proof.Machine
end

section
/-! PROOFS. The footprint of a field in an admitted layout (00_scope.md R8, 43_field_encoder.md R163): its bytes are
distinct, and its mask at a byte is the mask of that byte's entry. -/
namespace Sys2Proof.Machine

/-- R8's structural rows: the bytes of a field are distinct. -/
theorem nodup_footprint_of_shaped {l : Layout} (h : l.shaped = true) (f : Field) :
    ((l.footprint f).map Prod.fst).Nodup := by
  simp only [Layout.shaped, Bool.and_eq_true, decide_eq_true_eq] at h
  obtain ⟨⟨⟨⟨⟨⟨⟨⟨⟨⟨⟨signal, -⟩, -⟩, -⟩, hour⟩, minute⟩, score⟩, battery, -⟩, temp1⟩, temp2⟩, humidity⟩, co2⟩ := h
  have pair {i j : Nat} (h : i ≠ j) : [i, j].Nodup := List.nodup_cons.mpr ⟨by simpa using h, List.nodup_singleton j⟩
  cases f with
  | signal => exact signal
  | bell => exact List.nodup_singleton _
  | hour => exact hour
  | minute => exact minute
  | score => exact score
  | battery => exact pair battery
  | temp1 => exact pair temp1
  | temp2 => exact pair temp2
  | humidity => exact pair humidity
  | co2 => exact co2

theorem State.nodup_footprint (s : State) (f : Field) : ((s.config.layout.footprint f).map Prod.fst).Nodup := by
  obtain ⟨-, -, -, shaped, -⟩ := (admitted_iff s.config).mp s.cfg.ok
  exact nodup_footprint_of_shaped shaped f

theorem maskAt_eq_of_mem {entries : List (Nat × Byte)} (nodup : (entries.map Prod.fst).Nodup) {i : Nat} {m : Byte}
    (mem : (i, m) ∈ entries) : maskAt i entries = m := by
  induction entries with
  | nil => exact nomatch mem
  | cons e entries ih =>
    obtain ⟨j, m'⟩ := e
    obtain ⟨fresh, nodup⟩ := List.nodup_cons.mp nodup
    rcases List.mem_cons.mp mem with eq | mem
    · obtain ⟨rfl, rfl⟩ := Prod.mk.inj eq
      have rest : maskAt i entries = 0 :=
        maskAt_eq_zero fun e he eq => fresh (List.mem_map.mpr ⟨e, he, eq⟩)
      rw [maskAt, if_pos rfl, rest]
      exact BitVec.or_zero
    · have other : i ≠ j := fun eq => fresh (List.mem_map.mpr ⟨_, mem, eq⟩)
      rw [maskAt, if_neg other, ih nodup mem]

/-- For every field but CO2 a footprint bit lies in the byte of a merge, outside its keep mask. -/
theorem State.footprintAt_cases (s : State) (v : Int) {f : Field} (hf : f ≠ .co2) (i : Nat) :
    s.config.layout.footprintAt f i = 0
      ∨ ∃ call ∈ fieldCalls s.config v f, call.1 = i ∧ s.config.layout.footprintAt f i = ~~~call.2.1 := by
  by_cases h : ∃ e ∈ s.config.layout.footprint f, e.1 = i
  · obtain ⟨e, he, rfl⟩ := h
    have mask : s.config.layout.footprintAt f e.1 = e.2 := maskAt_eq_of_mem (s.nodup_footprint f) he
    rw [← fieldCalls_footprint s.config v hf, List.mem_map] at he
    obtain ⟨call, mem, rfl⟩ := he
    exact .inr ⟨call, mem, rfl, mask⟩
  · exact .inl (maskAt_eq_zero fun e he eq => h ⟨e, he, eq⟩)

/-- A merge of a field operation writes inside an entry of the footprint: for CO2 because no pattern has bit 7 (R7). -/
theorem State.fieldCalls_entry (s : State) {f : Field} {v : Int} (admits : fieldAdmits f v)
    {call : Nat × Byte × Byte} (mem : call ∈ fieldCalls s.config v f) :
    ∃ m, (call.1, m) ∈ s.config.layout.footprint f ∧ ~~~call.2.1 &&& ~~~m = 0 := by
  by_cases hf : f = .co2
  · subst hf
    obtain ⟨low, high⟩ := admits
    have pattern {k : Nat} (hk : k ≤ 10) : ~~~(~~~tableA s.config k) &&& ~~~0x7F = 0 := by
      rw [BitVec.not_not]
      exact tableA_and_keep s hk
    simp only [fieldCalls, List.mem_cons, List.not_mem_nil, or_false] at mem
    rcases mem with rfl | rfl | rfl
    · exact ⟨0x7F, by simp [Layout.footprint, orACall], pattern (by simp only [digitIndex]; omega)⟩
    · exact ⟨0x7F, by simp [Layout.footprint, orACall], pattern (Nat.mod_lt _ (by decide))⟩
    · exact ⟨0x7F, by simp [Layout.footprint, putACall], by simp [putACall]⟩
  · refine ⟨~~~call.2.1, ?_, BitVec.and_not_self _⟩
    rw [← fieldCalls_footprint s.config v hf]
    exact List.mem_map_of_mem mem

/-- Outside the footprint a merge of a field operation keeps every bit. -/
theorem State.fieldCalls_inside (s : State) {f : Field} {v : Int} (admits : fieldAdmits f v)
    {call : Nat × Byte × Byte} (mem : call ∈ fieldCalls s.config v f) :
    ~~~call.2.1 &&& ~~~(s.config.layout.footprintAt f call.1) = 0 := by
  obtain ⟨m, entry, inside⟩ := s.fieldCalls_entry admits mem
  rwa [Layout.footprintAt, maskAt_eq_of_mem (s.nodup_footprint f) entry]

theorem State.fieldCalls_below (s : State) {f : Field} {v : Int} (admits : fieldAdmits f v) :
    ∀ call ∈ fieldCalls s.config v f, call.1 < s.config.n := by
  intro call mem
  obtain ⟨m, entry, -⟩ := s.fieldCalls_entry admits mem
  exact (admittedLayout.1 s f).1 _ entry

theorem State.fieldOp_merged (s : State) {f : Field} {v : Int} (admits : fieldAdmits f v) :
    s.Merged (fieldOp f v s) (fieldCalls s.config v f) :=
  (fieldOp_mergesDisjointly admits s).merged (fieldCalls_indices s.config v f ▸ s.nodup_footprint f)
    (s.fieldCalls_below admits)

end Sys2Proof.Machine
end

section
/-! PROOFS. What a `SETF` of a known field does (43_field_encoder.md R150, R162, R164): the range error, or the merges
and one transfer of the whole buffer, O20 and O46. -/
namespace Sys2Proof.Machine

/-- The range check of R150 admits the values of R72. -/
theorem outOfRange_eq_false_iff (f : Field) (v : Int) : outOfRange f v = false ↔ fieldAdmits f v := by
  rw [outOfRange, Bool.or_eq_false_iff, decide_eq_false_iff_not, decide_eq_false_iff_not, not_lt, not_lt]
  cases f <;> rfl

/-- Writes of Display Memory, then the transfer and the completion (R150). -/
theorem State.WritesDm.sentWhole {s u : State} (h : s.WritesDm u) : s.SentWhole (u.transfer.setResult codeOk) := by
  obtain ⟨-, trace, -, port⟩ := h.frame
  have reads : (u.transfer.setResult codeOk).readDm = u.readDm := funext (u.readDm_transfer_setResult codeOk)
  refine ⟨?_, ?_, rfl, ?_⟩
  · rw [reads, State.transfer_eq, State.setResult_trace, State.afterEvents_trace, trace, State.dmGet, h.config_eq]
  · rw [State.transfer_eq]
    exact State.afterEvents_atRest (dataFrame u.config u.dmGet) u
  · rw [State.transfer_eq]
    exact port

/-- R150, R162: with a value in range, a `SETF` completes with its merges done and the whole buffer sent. -/
theorem setf_inRange {f : Field} {v : Int} (admits : fieldAdmits f v) (s : State) :
    ∃ t, exec (setfCommand f v) s = .next t ∧ s.SentWhole t ∧ s.Merged t (fieldCalls s.config v f) := by
  have merges := fieldOp_mergesDisjointly admits s
  obtain ⟨disjoint, written, kept⟩ := s.fieldOp_merged admits
  refine ⟨_, (exec_setfCommand f v s).trans (setField_of_inRange ((outOfRange_eq_false_iff f v).mpr admits) _ s),
    (State.WritesDm.refl.mergesDisjointly merges).sentWhole, disjoint, ?_, ?_⟩
  · simpa only [State.readDm_transfer_setResult] using written
  · simpa only [State.KeepsBytes, State.readDm_transfer_setResult] using kept

/-- R150: with any other value a `SETF` sets RESULT to 1 and changes nothing else. -/
theorem setf_rangeError {f : Field} {v : Int} (outside : ¬fieldAdmits f v) (s : State) :
    exec (setfCommand f v) s = .next { s with result := 1 } := by
  rw [exec_setfCommand]
  rcases setField_cases f (fieldOp f) v s with ⟨-, error⟩ | ⟨inRange, -⟩
  · exact error
  · exact absurd ((outOfRange_eq_false_iff f v).mp inRange) outside

/-- The inversion of a `SETF` of a known field. -/
theorem setf_cases {f : Field} {v : Int} {s t : State} (h : exec (setfCommand f v) s = .next t) :
    (fieldAdmits f v ∧ s.SentWhole t ∧ s.Merged t (fieldCalls s.config v f))
      ∨ (¬fieldAdmits f v ∧ t = { s with result := 1 }) := by
  by_cases admits : fieldAdmits f v
  · obtain ⟨t', completed, sent, merged⟩ := setf_inRange admits s
    cases completed.symm.trans h
    exact .inl ⟨admits, sent, merged⟩
  · cases (setf_rangeError admits s).symm.trans h
    exact .inr ⟨admits, rfl⟩

theorem length_dataFrame (c : Config) (dm : List Byte) : (dataFrame c dm).length = 16 + 33 * (dm.length + 2) :=
  length_frameEvents c _

/-- Settles O20: `setf_inRange` and `setf_rangeError`, with the events of the one frame counted. -/
theorem setfSendsWholeBuffer : Obligations.SetfSendsWholeBuffer := by
  refine fun f v s => ⟨fun admits => ?_, fun outside => setf_rangeError outside s⟩
  obtain ⟨t, completed, sent, -⟩ := setf_inRange admits s
  refine ⟨t, completed, sent, ?_⟩
  obtain ⟨trace, -⟩ := sent
  rw [trace, List.length_append, length_dataFrame, List.length_map, List.length_range]

/-- A merge whose mask lies in `m` keeps every bit outside `m`. -/
theorem merge_and_not_of_inside {keep val m : Byte} (disjoint : val &&& keep = 0) (inside : ~~~keep &&& ~~~m = 0)
    (old : Byte) : ((old &&& keep) ||| val) &&& ~~~m = old &&& ~~~m := by
  have kept : ~~~m &&& keep = ~~~m := by
    have h := and_not_eq_self (val := ~~~m) (keep := ~~~keep) (by rwa [BitVec.and_comm])
    rwa [BitVec.not_not] at h
  calc ((old &&& keep) ||| val) &&& ~~~m
    _ = (((old &&& keep) ||| val) &&& keep) &&& ~~~m := by rw [BitVec.and_assoc, BitVec.and_comm keep, kept]
    _ = old &&& ~~~m := by rw [merge_and_keep disjoint, BitVec.and_assoc, BitVec.and_comm keep, kept]

theorem State.Merged.keepsOutside {s t : State} {f : Field} {v : Int} (admits : fieldAdmits f v)
    (h : s.Merged t (fieldCalls s.config v f)) : s.KeepsOutside f t := by
  intro i
  by_cases hit : i ∈ (fieldCalls s.config v f).map Prod.fst
  · obtain ⟨call, mem, rfl⟩ := List.mem_map.mp hit
    rw [h.written call mem, merge_and_not_of_inside (h.disjoint call mem) (s.fieldCalls_inside admits mem)]
  · rw [h.kept i hit]

/-- R164: whatever its value, a `SETF` keeps every bit outside the footprint of its field. -/
theorem setf_keepsOutside {f : Field} {v : Int} {s t : State} (h : exec (setfCommand f v) s = .next t) :
    s.KeepsOutside f t := by
  rcases setf_cases h with ⟨admits, -, merged⟩ | ⟨-, rfl⟩
  · exact merged.keepsOutside admits
  · exact fun _ => rfl

/-- Settles O46: the footprint of another field lies outside the field's own (R8). -/
theorem fieldsDoNotInterfere : Obligations.FieldsDoNotInterfere := by
  intro f v s t h
  refine ⟨setf_keepsOutside h, fun g hg i => ?_⟩
  obtain ⟨-, disjoint⟩ := admittedLayout.1 s f
  have outside : s.config.layout.footprintAt g i =
      ~~~(s.config.layout.footprintAt f i) &&& s.config.layout.footprintAt g i := by
    rw [BitVec.and_comm, and_not_eq_self]
    rw [BitVec.and_comm, disjoint g hg i]
  rw [outside, ← BitVec.and_assoc, setf_keepsOutside h i, BitVec.and_assoc]

end Sys2Proof.Machine
end

section
/-! PROOFS. The three fields of indicator bits, the signal, the bell and the battery (43_field_encoder.md R152, R153,
R157), O21, O22 and O26. -/
namespace Sys2Proof.Machine

/-- A merge that clears `m` and shows it on a condition. -/
theorem State.maskIs_of_merge {t : State} {i : Nat} {old keep val m : Byte} {p on : Prop} [Decidable p]
    (byte : t.readDm i = (old &&& keep) ||| val) (cleared : m &&& keep = 0)
    (shown : val &&& m = if p then m else 0) (condition : p ↔ on) : t.MaskIs i m on := by
  have bits : t.readDm i &&& m = if p then m else 0 := by
    rw [byte, BitVec.and_or_distrib_right, BitVec.and_assoc, BitVec.and_comm keep, cleared, shown]
    exact (congrArg (· ||| _) BitVec.and_zero).trans BitVec.zero_or
  rw [← condition]
  exact ⟨fun h => by rw [bits, if_pos h], fun h => by rw [bits, if_neg h]⟩

theorem ite_and_self {p : Prop} [Decidable p] (m : Byte) : (if p then m else 0) &&& m = if p then m else 0 := by
  split
  · exact BitVec.and_self
  · exact BitVec.zero_and

theorem exists_twoPow_of_oneBit : ∀ m : Byte, oneBit m = true → ∃ k : Fin 8, m = BitVec.twoPow 8 k := by decide

/-- Two different masks of one bit have no bit in common (00_scope.md R8). -/
theorem and_eq_zero_of_oneBit {m m' : Byte} (h : oneBit m = true) (h' : oneBit m' = true) (ne : m ≠ m') :
    m &&& m' = 0 := by
  obtain ⟨k, rfl⟩ := exists_twoPow_of_oneBit m h
  obtain ⟨k', rfl⟩ := exists_twoPow_of_oneBit m' h'
  have hk : k ≠ k' := fun eq => ne (eq ▸ rfl)
  rw [BitVec.and_twoPow, BitVec.getLsbD_twoPow]
  simp [Fin.val_inj, hk]

/-- R8: the three masks of the signal's first byte have no bit in common. -/
theorem State.signalMasks_disjoint (s : State) :
    s.config.layout.sigM1 &&& s.config.layout.sigM2 = 0 ∧ s.config.layout.sigM1 &&& s.config.layout.sigM3 = 0
      ∧ s.config.layout.sigM2 &&& s.config.layout.sigM3 = 0 := by
  obtain ⟨-, -, -, shaped, -⟩ := (admitted_iff s.config).mp s.cfg.ok
  simp only [Layout.shaped, Bool.and_eq_true, decide_eq_true_eq, List.all_cons] at shaped
  obtain ⟨⟨⟨⟨⟨⟨⟨⟨⟨⟨⟨-, one1, one2, one3, -⟩, distinct⟩, -⟩, -⟩, -⟩, -⟩, -⟩, -⟩, -⟩, -⟩, -⟩ := shaped
  obtain ⟨⟨ne12, ne13⟩, ne23⟩ : (_ ∧ _) ∧ _ := by simpa using distinct
  exact ⟨and_eq_zero_of_oneBit one1 one2 ne12, and_eq_zero_of_oneBit one1 one3 ne13,
    and_eq_zero_of_oneBit one2 one3 ne23⟩

/-- Of the tiers of three masks without a common bit, each mask shows its own. -/
theorem signalTiers_and {m₁ m₂ m₃ : Byte} (h₁₂ : m₁ &&& m₂ = 0) (h₁₃ : m₁ &&& m₃ = 0) (h₂₃ : m₂ &&& m₃ = 0)
    (level : Nat) :
    (tier 1 level m₁ ||| tier 2 level m₂ ||| tier 3 level m₃) &&& m₁ = tier 1 level m₁
    ∧ (tier 1 level m₁ ||| tier 2 level m₂ ||| tier 3 level m₃) &&& m₂ = tier 2 level m₂
    ∧ (tier 1 level m₁ ||| tier 2 level m₂ ||| tier 3 level m₃) &&& m₃ = tier 3 level m₃ := by
  have own (k : Nat) (m : Byte) : tier k level m &&& m = tier k level m := ite_and_self m
  have h₂₁ : m₂ &&& m₁ = 0 := by rw [BitVec.and_comm, h₁₂]
  have h₃₁ : m₃ &&& m₁ = 0 := by rw [BitVec.and_comm, h₁₃]
  have h₃₂ : m₃ &&& m₂ = 0 := by rw [BitVec.and_comm, h₂₃]
  refine ⟨?_, ?_, ?_⟩
  · simp [BitVec.and_or_distrib_right, own, tier_and_eq_zero h₂₁, tier_and_eq_zero h₃₁]
  · simp [BitVec.and_or_distrib_right, own, tier_and_eq_zero h₁₂, tier_and_eq_zero h₃₂]
  · simp [BitVec.and_or_distrib_right, own, tier_and_eq_zero h₁₃, tier_and_eq_zero h₂₃]

/-- Settles O21: the three indicators of the first byte share a merge, the fourth and the fifth have one each. -/
theorem setSignalShowsLevel : Obligations.SetSignalShowsLevel := by
  refine fun v s => ⟨fun admits => ?_, fun outside => setf_rangeError (f := .signal) (fun ⟨_, _⟩ => by omega) s⟩
  obtain ⟨t, completed, sent, merged⟩ := setf_inRange (f := .signal) admits s
  obtain ⟨byte1, byte4, byte5, -⟩ : _ ∧ _ ∧ _ ∧ _ := by
    simpa only [fieldCalls, List.forall_mem_cons] using merged.written
  obtain ⟨disjoint12, disjoint13, disjoint23⟩ := s.signalMasks_disjoint
  obtain ⟨tier1, tier2, tier3⟩ := signalTiers_and disjoint12 disjoint13 disjoint23 v.natAbs
  have single (m : Byte) : m &&& ~~~m = 0 := BitVec.and_not_self m
  refine ⟨t, completed, sent, merged.keepsOutside admits, ?_, ?_, ?_, ?_, ?_⟩
  · exact State.maskIs_of_merge byte1 (and_not_or_of_left (and_not_or_of_left (single _) _) _) tier1 (by omega)
  · exact State.maskIs_of_merge byte1 (and_not_or_of_left (and_not_or_of_right (single _) _) _) tier2 (by omega)
  · exact State.maskIs_of_merge byte1 (and_not_or_of_right (single _) _) tier3 (by omega)
  · exact State.maskIs_of_merge byte4 (single _) (ite_and_self _) (by omega)
  · exact State.maskIs_of_merge byte5 (single _) (ite_and_self _) (by omega)

/-- Settles O22: the bell's one merge. -/
theorem setBellWritesOneBit : Obligations.SetBellWritesOneBit := by
  refine fun v s => ⟨fun range => ?_, fun outside => setf_rangeError (f := .bell) (fun ⟨_, _⟩ => by omega) s⟩
  have admits : fieldAdmits .bell v := ⟨by omega, by omega⟩
  obtain ⟨t, completed, sent, merged⟩ := setf_inRange admits s
  have byte := merged.written _ List.mem_cons_self
  exact ⟨t, completed, sent, merged.keepsOutside admits,
    State.maskIs_of_merge byte (BitVec.and_not_self _) (ite_and_self _) Iff.rfl⟩

theorem extract_batteryBars {v : Int} (low : 0 ≤ v) (high : v ≤ 4) : (batteryBars v.natAbs).extractLsb' 0 4 =
    ([0x0, 0x0, 0x8, 0x9, 0xD] : List (BitVec 4)).getD v.toNat 0 := by
  interval_cases v <;> rfl

/-- Settles O26: the body bit is a tier of level 1, and the bars take the four bits their merge does not keep. -/
theorem setBatteryShowsLevel : Obligations.SetBatteryShowsLevel := by
  refine fun v s => ⟨fun admits => ?_, fun outside => setf_rangeError (f := .battery) (fun ⟨_, _⟩ => by omega) s⟩
  obtain ⟨t, completed, sent, merged⟩ := setf_inRange (f := .battery) admits s
  obtain ⟨body, bars, -⟩ : _ ∧ _ ∧ _ := by
    simpa only [fieldCalls, List.forall_mem_cons] using merged.written
  refine ⟨t, completed, sent, merged.keepsOutside admits, ?_, ?_⟩
  · exact State.maskIs_of_merge body (BitVec.and_not_self _) (ite_and_self _) (by omega)
  · rw [bars, extract_merge_of_cleared (by decide)]
    exact extract_batteryBars admits.1 admits.2

end Sys2Proof.Machine
end

section
/-! PROOFS. The fields that show decimal digits (43_field_encoder.md R154 to R156, R158 to R161): the hour, the minute
and the score by Table B, the temperatures, the humidity and CO2 by Table A, O23 to O25 and O27 to O30. -/
namespace Sys2Proof.Machine

/-- A Table B field in range, given its footprint and that its merges write the two digits of the value there. -/
theorem setf_showsB2 {f : Field} {v : Int} {s : State} {a b c : Nat} (admits : fieldAdmits f v)
    (nonneg : 0 ≤ v) (digits : fieldCalls s.config v f = putB2Calls s.config a b c (v.natAbs / 10) (v.natAbs % 10))
    (shape : s.config.layout.footprint f = [(a, 0x0F), (b, 0xEF), (c, 0xE0)]) :
    ∃ t, exec (setfCommand f v) s = .next t ∧ s.SentWhole t ∧ s.ShowsB2 t a b c (v.toNat / 10) (v.toNat % 10)
      ∧ s.KeepsBytes t [a, b, c] := by
  have nodup : [a, b, c].Nodup := by simpa [shape] using s.nodup_footprint f
  have magnitude : v.natAbs = v.toNat := by omega
  obtain ⟨t, completed, sent, merged⟩ := setf_inRange admits s
  rw [digits, magnitude] at merged
  exact ⟨t, completed, sent, merged.showsB2 (State.distinctBelow_of_footprint shape nodup), merged.kept⟩

/-- Settles O23: the hour is a Table B field. -/
theorem setHourShowsDigits : Obligations.SetHourShowsDigits := fun _ _ =>
  ⟨fun admits => setf_showsB2 (f := .hour) admits admits.1 rfl rfl,
    fun outside => setf_rangeError (f := .hour) (fun ⟨_, _⟩ => by omega) _⟩

/-- Settles O24: the minute is a Table B field. -/
theorem setMinuteShowsDigits : Obligations.SetMinuteShowsDigits := fun _ _ =>
  ⟨fun admits => setf_showsB2 (f := .minute) admits admits.1 rfl rfl,
    fun outside => setf_rangeError (f := .minute) (fun ⟨_, _⟩ => by omega) _⟩

/-- Settles O25: the score is a Table B field. -/
theorem setScoreShowsDigits : Obligations.SetScoreShowsDigits := fun _ _ =>
  ⟨fun admits => setf_showsB2 (f := .score) admits admits.1 rfl rfl,
    fun outside => setf_rangeError (f := .score) (fun ⟨_, _⟩ => by omega) _⟩

/-- A field in range whose merges are those of two `PutA` calls. -/
theorem setf_showsA_pair {f : Field} {v : Int} {s : State} {i j k m : Nat} (admits : fieldAdmits f v)
    (calls : fieldCalls s.config v f = [putACall s.config i k, putACall s.config j m]) (hk : k ≤ 10) (hm : m ≤ 10) :
    ∃ t, exec (setfCommand f v) s = .next t ∧ s.SentWhole t ∧ s.ShowsA t i k ∧ s.ShowsA t j m
      ∧ s.KeepsBytes t [i, j] := by
  obtain ⟨t, completed, sent, merged⟩ := setf_inRange admits s
  rw [calls] at merged
  exact ⟨t, completed, sent, merged.showsA List.mem_cons_self hk,
    merged.showsA (List.mem_cons_of_mem _ List.mem_cons_self) hm, merged.kept⟩

section
variable {f : Field} {v : Int} {s : State} {tb ub : Nat}
  (channel : fieldCalls s.config v f = tempCalls s.config tb ub v)
  (admits : fieldAdmits f v)
include channel admits

/-- R158: a negative value shows the sentinel and the digit of its absolute value. -/
theorem setf_temp_of_neg (low : -9 ≤ v) (neg : v < 0) :
    ∃ t, exec (setfCommand f v) s = .next t ∧ s.SentWhole t ∧ s.ShowsA t tb 0 ∧ s.ShowsA t ub (v.natAbs + 1)
      ∧ s.KeepsBytes t [tb, ub] :=
  setf_showsA_pair admits (channel.trans (if_pos neg)) (by decide) (by omega)

/-- R158: any other value shows its two digits. -/
theorem setf_temp_of_nonneg (nonneg : 0 ≤ v) (high : v ≤ 99) :
    ∃ t, exec (setfCommand f v) s = .next t ∧ s.SentWhole t ∧ s.ShowsA t tb (v.toNat / 10 + 1)
      ∧ s.ShowsA t ub (v.toNat % 10 + 1) ∧ s.KeepsBytes t [tb, ub] := by
  have magnitude : v.natAbs = v.toNat := by omega
  have calls := channel.trans (if_neg (not_lt.mpr nonneg))
  rw [magnitude] at calls
  exact setf_showsA_pair admits calls (by omega) (by omega)

end

/-- Settles O27: the first temperature channel. -/
theorem setTemp1ShowsValue : Obligations.SetTemp1ShowsValue := fun _ _ =>
  ⟨fun ⟨low, neg⟩ => setf_temp_of_neg (f := .temp1) rfl ⟨low, by omega⟩ low neg,
    fun ⟨nonneg, high⟩ => setf_temp_of_nonneg (f := .temp1) rfl ⟨by omega, high⟩ nonneg high,
    fun outside => setf_rangeError (f := .temp1) (fun ⟨_, _⟩ => by omega) _⟩

/-- Settles O28: the second temperature channel. -/
theorem setTemp2ShowsValue : Obligations.SetTemp2ShowsValue := fun _ _ =>
  ⟨fun ⟨low, neg⟩ => setf_temp_of_neg (f := .temp2) rfl ⟨low, by omega⟩ low neg,
    fun ⟨nonneg, high⟩ => setf_temp_of_nonneg (f := .temp2) rfl ⟨by omega, high⟩ nonneg high,
    fun outside => setf_rangeError (f := .temp2) (fun ⟨_, _⟩ => by omega) _⟩

/-- Settles O29: the humidity is two `PutA` calls. -/
theorem setHumidityShowsDigits : Obligations.SetHumidityShowsDigits := by
  refine fun v s => ⟨fun admits => ?_, fun outside => setf_rangeError (f := .humidity) (fun ⟨_, _⟩ => by omega) s⟩
  have magnitude : v.natAbs = v.toNat := by omega
  exact setf_showsA_pair (f := .humidity) admits (by simp only [fieldCalls, magnitude, digitIndex]) (by omega)
    (by omega)

/-- Settles O30: the hundreds and tens bytes are ORed, the units byte is a `PutA`. -/
theorem setCo2OrsHundredsAndTens : Obligations.SetCo2OrsHundredsAndTens := by
  refine fun v s => ⟨fun admits => ?_, fun outside => setf_rangeError (f := .co2) (fun ⟨_, _⟩ => by omega) s⟩
  have magnitude : v.natAbs = v.toNat := by omega
  obtain ⟨t, completed, sent, merged⟩ := setf_inRange (f := .co2) admits s
  rw [fieldCalls, magnitude] at merged
  exact ⟨t, completed, sent, merged.readDm_orA (by simp [digitIndex]), merged.readDm_orA (by simp [digitIndex]),
    merged.showsA (by simp [digitIndex]) (by omega), merged.kept⟩

end Sys2Proof.Machine
end

section
/-! PROOFS. What a `SETF` leaves in its field whatever stood there (43_field_encoder.md R165), and the signal bars
raised and lowered again (R152), O47 and O48. -/
namespace Sys2Proof.Machine

theorem eq_of_and_eq {x y m : Byte} (inside : x &&& m = y &&& m) (outside : x &&& ~~~m = y &&& ~~~m) : x = y := by
  have halves (z : Byte) : z = (z &&& m) ||| (z &&& ~~~m) := by
    rw [← BitVec.and_or_distrib_left, BitVec.or_not_self, BitVec.and_allOnes]
  rw [halves x, halves y, inside, outside]

/-- The bits of a field, for every field but CO2, are the values of its merges. -/
theorem State.Merged.field_eq {s₁ s₂ t₁ t₂ : State} {f : Field} {v : Int} (hf : f ≠ .co2) (hc : s₁.cfg = s₂.cfg)
    (h₁ : s₁.Merged t₁ (fieldCalls s₁.config v f)) (h₂ : s₂.Merged t₂ (fieldCalls s₂.config v f)) (i : Nat) :
    t₁.readDm i &&& s₁.config.layout.footprintAt f i = t₂.readDm i &&& s₁.config.layout.footprintAt f i := by
  rw [State.config, ← hc] at h₂
  rcases s₁.footprintAt_cases v hf i with untouched | ⟨call, mem, rfl, mask⟩
  · rw [untouched]
    exact BitVec.and_zero.trans BitVec.and_zero.symm
  · rw [mask, h₁.and_not_keep mem, h₂.and_not_keep mem]

/-- Settles O47: both states end with the same merges, and of a second `SETF` the first clause gives the bits of the
field, R164 the others. -/
theorem fieldBitsDependOnValueAlone : Obligations.FieldBitsDependOnValueAlone := by
  intro f v s₁ s₂ t₁ t₂ hf admits hc h₁ h₂
  obtain ⟨-, sent₁, merged₁⟩ := (setf_cases h₁).resolve_right fun ⟨outside, _⟩ => outside admits
  obtain ⟨-, -, merged₂⟩ := (setf_cases h₂).resolve_right fun ⟨outside, _⟩ => outside admits
  refine ⟨merged₁.field_eq hf hc merged₂, ?_⟩
  obtain ⟨-, -, -, cfg, -⟩ := sent₁
  obtain ⟨u, completed, -, merged⟩ := setf_inRange admits t₁
  refine ⟨u, completed, fun i => eq_of_and_eq ?_ (merged.keepsOutside admits i)⟩
  exact merged.field_eq hf cfg merged₁ i

theorem State.KeepsOutside.trans {f : Field} {s t u : State} (h : s.KeepsOutside f t) (hc : t.cfg = s.cfg)
    (h' : t.KeepsOutside f u) : s.KeepsOutside f u := by
  intro i
  have later := h' i
  rw [State.config, hc] at later
  exact later.trans (h i)

/-- At level 0 every merge of the signal writes no bit. -/
theorem signalCalls_zero {c : Config} {call : Nat × Byte × Byte} (mem : call ∈ fieldCalls c 0 .signal) :
    call.2.2 = 0 := by
  simp only [fieldCalls, List.mem_cons, List.not_mem_nil, or_false] at mem
  rcases mem with rfl | rfl | rfl <;> simp [tier]

/-- The signal at level 0: its five indicators are clear (R152). -/
theorem setfSignal_zero (s : State) :
    ∃ t, exec (.setfSignal 0) s = .next t ∧ t.cfg = s.cfg ∧ s.KeepsOutside .signal t
      ∧ ∀ i, t.readDm i &&& s.config.layout.footprintAt .signal i = 0 := by
  have admits : fieldAdmits .signal 0 := ⟨by decide, by decide⟩
  obtain ⟨t, completed, ⟨-, -, -, cfg, -⟩, merged⟩ := setf_inRange admits s
  refine ⟨t, completed, cfg, merged.keepsOutside admits, fun i => ?_⟩
  rcases s.footprintAt_cases 0 (f := .signal) (by decide) i with untouched | ⟨call, mem, rfl, mask⟩
  · rw [untouched]
    exact BitVec.and_zero
  · rw [mask, merged.and_not_keep mem, signalCalls_zero mem]

/-- Settles O48: none of the three commands changes a bit outside the footprint, and the last is a level 0. -/
theorem signalRoundTrip : Obligations.SignalRoundTrip := by
  intro s
  obtain ⟨t, down, cfgT, keepsT, -⟩ := setfSignal_zero s
  obtain ⟨u, up, ⟨-, -, -, cfgU, -⟩, keepsU, -, -, -, ⟨fourth, -⟩, -⟩ := (setSignalShowsLevel 5 t).1 (by decide)
  obtain ⟨w, again, -, keepsW, clear⟩ := setfSignal_zero u
  have cfg : u.cfg = s.cfg := cfgU.trans cfgT
  refine ⟨t, u, w, down, up, again, (keepsT.trans cfgT keepsU).trans cfg keepsW, ?_, ?_⟩
  · rwa [State.config, cfg] at clear
  · rw [State.config, cfgT] at fourth
    exact fourth (by decide)

end Sys2Proof.Machine
end

section
/-! PROOFS. Bit 7 of the Table A bytes (43_field_encoder.md R166, 42_segment_tables.md R136), command by command, and
the unknown field types (R151), O49 and O19. -/
namespace Sys2Proof.Machine

theorem State.KeepsOutside.getLsbD {f : Field} {s t : State} (h : s.KeepsOutside f t) {i k : Nat} (hk : k < 8)
    (outside : (s.config.layout.footprintAt f i).getLsbD k = false) :
    (t.readDm i).getLsbD k = (s.readDm i).getLsbD k := by
  have bit := congrArg (BitVec.getLsbD · k) (h i)
  simpa only [BitVec.getLsbD_and, BitVec.getLsbD_not, outside, hk, decide_true, Bool.not_false, Bool.and_true] using bit

/-- A command that writes no whole buffer is a `SETF` of a known field, or leaves Display Memory alone (R151, R190). -/
theorem setf_or_keepsDm {i : Instr} (h : i ∉ [Instr.clr, Instr.fill, Instr.ldef]) :
    (∃ f v, i = setfCommand f v) ∨ ∀ s t, exec i s = .next t → ∀ j, t.readDm j = s.readDm j := by
  have raised {code : BitVec 2} {s t : State} (he : s.raise code = .next t) (j : Nat) : t.readDm j = s.readDm j := by
    cases he
    rfl
  cases i with
  | init =>
    refine .inr fun s t he j => ?_
    cases (execInit_eq s).symm.trans he
    rfl
  | clr | fill | ldef => simp at h
  | setfSignal v => exact .inl ⟨.signal, v, rfl⟩
  | setfBell v => exact .inl ⟨.bell, v, rfl⟩
  | setfHour v => exact .inl ⟨.hour, v, rfl⟩
  | setfMinute v => exact .inl ⟨.minute, v, rfl⟩
  | setfScore v => exact .inl ⟨.score, v, rfl⟩
  | setfBattery v => exact .inl ⟨.battery, v, rfl⟩
  | setfTemp1 v => exact .inl ⟨.temp1, v, rfl⟩
  | setfTemp2 v => exact .inl ⟨.temp2, v, rfl⟩
  | setfHumidity v => exact .inl ⟨.humidity, v, rfl⟩
  | setfCo2 v => exact .inl ⟨.co2, v, rfl⟩
  | setf10 v | setf11 v | setf12 v | setf13 v | setf14 v | setf15 v => exact .inr fun _ _ => raised

/-- The fields that show Table A digits (42_segment_tables.md R136, R137). -/
def tableAFields : List Field := [.temp1, .temp2, .humidity, .co2]

/-- The bytes `PutA` and `OrA` write are those of the footprints of the Table A fields. -/
theorem tableABytes_eq (l : Layout) : l.tableABytes = (tableAFields.flatMap l.footprint).map Prod.fst := rfl

theorem State.tableABytes_below (s : State) {b : Nat} (hb : b ∈ s.config.layout.tableABytes) : b < s.config.n := by
  rw [tableABytes_eq] at hb
  obtain ⟨e, he, rfl⟩ := List.mem_map.mp hb
  obtain ⟨f, -, entry⟩ := List.mem_flatMap.mp he
  exact (admittedLayout.1 s f).1 e entry

theorem maskAt_topBit {entries : List (Nat × Byte)} (h : ∀ e ∈ entries, e.2.getLsbD 7 = false) (i : Nat) :
    (maskAt i entries).getLsbD 7 = false := by
  induction entries with
  | nil => exact BitVec.getLsbD_zero
  | cons e entries ih =>
    obtain ⟨head, tail⟩ := List.forall_mem_cons.mp h
    rw [maskAt]
    split
    · rw [BitVec.getLsbD_or, head, ih tail]
      rfl
    · exact ih tail

/-- No Table A field has bit 7 of a byte in its footprint (R163). -/
theorem footprintAt_topBit (l : Layout) {f : Field} (hf : f ∈ tableAFields) (i : Nat) :
    (l.footprintAt f i).getLsbD 7 = false := by
  have masks : ∀ e ∈ l.footprint f, e.2.getLsbD 7 = false := by fin_cases hf <;> simp [Layout.footprint]
  exact maskAt_topBit masks i

/-- In a layout that reserves bit 7 of the Table A bytes no field has it (R166). -/
theorem topBit_of_reserves {l : Layout} (h : l.reservesTopBits = true) {b : Nat} (hb : b ∈ l.tableABytes) (f : Field) :
    (l.footprintAt f b).getLsbD 7 = false := by
  simp only [Layout.reservesTopBits, List.all_eq_true, Bool.not_eq_true'] at h
  exact h b hb f (Field.mem_all f)

/-- R164 on bit 7: a command that writes no whole buffer keeps it where it is in no footprint the command writes. -/
theorem exec_keeps_topBit {i : Instr} {s t : State} {b : Nat} (h : i ∉ [Instr.clr, Instr.fill, Instr.ldef])
    (outside : ∀ f v, i = setfCommand f v → (s.config.layout.footprintAt f b).getLsbD 7 = false)
    (he : exec i s = .next t) : (t.readDm b).getLsbD 7 = (s.readDm b).getLsbD 7 := by
  rcases setf_or_keepsDm h with ⟨f, v, rfl⟩ | keeps
  · exact (setf_keepsOutside he).getLsbD (by decide) (outside f v rfl)
  · rw [keeps s t he]

/-- After a whole-buffer write, the transfer and the completion, every byte holds what was written. -/
theorem State.readDm_wholeBuffer {s t : State} {f : Nat → Byte} {i : Nat} (hi : i < s.config.n)
    (he : (s.writeBelow f s.config.n).transfer.complete = .next t) : t.readDm i = f i := by
  cases he
  rw [State.readDm_transfer_setResult, State.readDm_writeBelow f le_rfl, if_pos hi]

/-- Settles O49: R164 for the commands that write one field or none, and the byte written for the three that write every
byte. -/
theorem tableAFieldsKeepTopBit : Obligations.TableAFieldsKeepTopBit := by
  refine ⟨fun s b hb => ?_, fun f hf v s t he i => ?_⟩
  · have below := s.tableABytes_below hb
    refine ⟨fun i t => exec_keeps_topBit, fun reserved => ?_, fun t he => ?_, fun t he => ?_, fun t he => ?_⟩
    · have unclaimed := topBit_of_reserves reserved hb
      exact ⟨unclaimed, fun i t h => exec_keeps_topBit h fun f _ _ => unclaimed f⟩
    · rw [State.readDm_wholeBuffer (f := fun _ => 0x00) below he]
      rfl
    · rw [State.readDm_wholeBuffer (f := fun _ => 0xFF) below he]
      rfl
    · rw [State.readDm_wholeBuffer (f := resetByte s.config) below he]
      rfl
  · exact (setf_keepsOutside he).getLsbD (by decide) (footprintAt_topBit _ hf i)

/-- Settles O19: each of the six ends at `State.raise`, which the value does not reach. -/
theorem unknownFieldTypes : Obligations.UnknownFieldTypes := fun _ _ => ⟨rfl, rfl, rfl, rfl, rfl, rfl⟩

end Sys2Proof.Machine
end

section
/-! PROOFS. The chip commands (44_chip_commands.md R190 to R195): completion of every command, what INIT and the three
whole-buffer commands leave, and a step on the word of each, O16 and O31 to O35. -/
namespace Sys2Proof.Machine

/-- No command changes the configuration or the host port (R20, R25, R83). -/
theorem CommandCase.samePort {s t : State} (h : CommandCase s t) : s.SamePort t := by
  cases h with
  | error code h => exact h ▸ ⟨rfl, rfl, rfl⟩
  | initialised h => exact h ▸ ⟨rfl, rfl, rfl⟩
  | transferred u hu h =>
    obtain ⟨-, -, -, port⟩ := hu.sentWhole
    exact h ▸ port

/-- Settles O16: every command completes in one of the three ways of `CommandCase`, none of which touches the port. -/
theorem everyCommandCompletes : Obligations.EveryCommandCompletes := by
  intro i s
  obtain ⟨t, completed, how⟩ := exec_completes i s
  exact ⟨t, completed, how.samePort⟩

/-- INIT's setup, delay and frame: 183 events with the device address, 150 without (R82). -/
theorem length_initEvents (c : Config) : (initEvents c).length = if c.initAddrPrefix = true then 183 else 150 := by
  rw [initEvents, List.length_cons, List.length_cons, length_frameEvents, initBytes]
  split <;> rfl

/-- Settles O31: the closed form of INIT, with its events counted. -/
theorem initSendsConfiguration : Obligations.InitSendsConfiguration := by
  refine fun s => ⟨_, execInit_eq s, rfl, ?_, ⟨rfl, rfl⟩, rfl, rfl, ⟨rfl, rfl, rfl⟩⟩
  rw [State.setResult_trace, State.afterEvents_trace, List.length_append, length_initEvents]

/-- What CLR, FILL and LDEF have in common: every byte `j` of Display Memory becomes `f j`, and the whole buffer `p` is
sent (R191 to R193). -/
theorem exec_wholeBuffer {i : Instr} {s : State} {f : Nat → Byte} {p : List Byte}
    (run : exec i s = (s.writeBelow f s.config.n).transfer.complete) (bytes : (List.range s.config.n).map f = p) :
    ∃ t, exec i s = .next t ∧ s.SentWhole t ∧ (∀ j, j < s.config.n → t.readDm j = f j)
      ∧ t.trace = s.trace ++ dataFrame s.config p := by
  have sent := (State.WritesDm.refl.writeBelow f s.config.n : s.WritesDm _).sentWhole
  have written : ∀ j, j < s.config.n → State.readDm _ j = f j := fun j hj => State.readDm_wholeBuffer hj rfl
  refine ⟨_, run, sent, written, ?_⟩
  obtain ⟨trace, -⟩ := sent
  rw [trace, List.map_congr_left fun j hj => written j (List.mem_range.mp hj), bytes]

/-- Settles O32: a whole-buffer write of zeros. -/
theorem clrClearsAndSends : Obligations.ClrClearsAndSends := fun _ =>
  exec_wholeBuffer (f := fun _ => 0x00) rfl (by simp)

/-- Settles O33: a whole-buffer write of ones. -/
theorem fillSetsAndSends : Obligations.FillSetsAndSends := fun _ =>
  exec_wholeBuffer (f := fun _ => 0xFF) rfl (by simp)

/-- Settles O34: a whole-buffer write of the reset bytes, which in index order are DEFAULT. -/
theorem ldefLoadsDefaultAndSends : Obligations.LdefLoadsDefaultAndSends := fun s =>
  exec_wholeBuffer (f := resetByte s.config) rfl s.map_resetByte_range

/-- R195, R114: each chip command ends with RESULT 0 and the lines at rest. -/
theorem exec_chipCommand {op : BitVec 4} {i : Instr} (row : (op, i) ∈ chipCommands) (s : State) :
    ∃ t, exec i s = .next t ∧ t.result = 0 ∧ t.AtRest := by
  have ofSent {i : Instr} {P : State → Prop} (h : ∃ t, exec i s = .next t ∧ s.SentWhole t ∧ P t) :
      ∃ t, exec i s = .next t ∧ t.result = 0 ∧ t.AtRest := by
    obtain ⟨t, completed, ⟨-, rest, result, -⟩, -⟩ := h
    exact ⟨t, completed, result, rest⟩
  fin_cases row
  · exact ⟨_, execInit_eq s, rfl, rfl, rfl⟩
  · exact ofSent (clrClearsAndSends s)
  · exact ofSent (fillSetsAndSends s)
  · exact ofSent (ldefLoadsDefaultAndSends s)

/-- Settles O35: the word of a chip command decodes to it, and the step adds to its run only the reply. -/
theorem chipCommandsCannotFail : Obligations.ChipCommandsCannotFail := by
  intro s i hi
  obtain ⟨op, row⟩ : ∃ op, (op, i) ∈ chipCommands := by
    fin_cases hi <;> simp [chipCommands]
  obtain ⟨t, completed, result, rest⟩ := exec_chipCommand row s
  have decoded : decode (encode i) = .ok i := by rw [encode_of_mem_chipCommands row, decode_chipWord row]
  exact ⟨t.reply .written, (step_withCommand _ s).trans (runWord_of_decode decoded completed), result, rest⟩

end Sys2Proof.Machine
end

section
/-! PROOFS. The result code of a word and what an error changes (60_exceptions.md R200 to R202), O17 and O18. -/
namespace Sys2Proof.Machine

/-- A legal word of operation 5 passes the decoder's test of the reserved bits (R75). -/
theorem decode_of_legal_setf {w : Word} (legal : ¬illegalWord w) (setf : w >>> 28 = 5#32) :
    decode w = .ok (setfOf (cmdFt w) (cmdVal w).toInt) := by
  have rsv : cmdRsv w = 0#8 := by
    rw [← and_reservedMask_eq_zero]
    by_contra set
    exact legal (.inr (.inr ⟨setf, set⟩))
  rw [decode_of_setf ((shiftRight_eq_iff w 5#4).mp setf) rsv, sext16_eq_toInt]

/-- A legal word of any other operation is a command without operands (R74, R76). -/
theorem decode_of_legal_chip {w : Word} (legal : ¬illegalWord w) (chip : w >>> 28 ≠ 5#32) :
    ∃ op i, (op, i) ∈ chipCommands ∧ decode w = .ok i := by
  have answered (e : IllegalWord) : decode w ≠ .error e := fun hd => legal ((decode_error_iff w).mp ⟨e, hd⟩)
  have c := decode_cases w
  generalize decode w = d at c answered ⊢
  cases c with
  | chip row hop operands => exact ⟨_, _, row, rfl⟩
  | setf hop rsv => exact absurd ((shiftRight_eq_iff w 5#4).mpr hop) chip
  | operandBitsSet row hop operands => exact absurd rfl (answered _)
  | reservedBitsSet hop rsv => exact absurd rfl (answered _)
  | undefinedOp hop => exact absurd rfl (answered _)

theorem setfCommand_of_cmdFt {w : Word} {f : Field} (hft : (cmdFt w).toNat = Field.all.idxOf f) (v : Int) :
    setfOf (cmdFt w) v = setfCommand f v := by
  rw [setfCommand_eq_setfOf, fieldType, ← hft, BitVec.ofNat_toNat, BitVec.setWidth_eq]

/-- Settles O17: each clause names the word's answer from the decoder, and the command's own lemma its result code. The
clauses exclude one another in the order of R202, since the decoder tests for an illegal word first and an unknown field
type reads no range. -/
theorem resultCodeOfEveryWord : Obligations.ResultCodeOfEveryWord := by
  intro w s
  obtain ⟨t, run⟩ := runWord_completes w s
  have result_of {i : Instr} {u : State} (hd : decode w = .ok i) (he : exec i s = .next u) : t.result = u.result := by
    cases run.symm.trans (runWord_of_decode hd he)
    rfl
  refine ⟨t, run, fun illegal => ?_, fun legal setf unknown => ?_, fun f legal setf hft => ?_, fun legal chip => ?_⟩
  · obtain ⟨e, hd⟩ := (decode_error_iff w).mpr illegal
    cases run.symm.trans (runWord_of_decode_error hd s)
    rfl
  · exact result_of (decode_of_legal_setf legal setf) (exec_setfOf_unknown unknown _ s)
  · have hd := decode_of_legal_setf legal setf
    rw [setfCommand_of_cmdFt hft] at hd
    refine ⟨fun outside => result_of hd (setf_rangeError outside s), fun admits => ?_⟩
    obtain ⟨u, completed, ⟨-, -, result, -⟩, -⟩ := setf_inRange admits s
    exact (result_of hd completed).trans result
  · obtain ⟨op, i, row, hd⟩ := decode_of_legal_chip legal chip
    obtain ⟨u, completed, result, -⟩ := exec_chipCommand row s
    exact (result_of hd completed).trans result

/-- A command completes with RESULT 0, or writes a result code and nothing else (R201). -/
theorem CommandCase.ok_or_error {s t : State} (h : CommandCase s t) : t.result = 0 ∨ ∃ code, t = s.setResult code := by
  cases h with
  | error code h => exact .inr ⟨code, h⟩
  | initialised h => exact .inl (congrArg State.result h)
  | transferred u hu h => exact .inl (congrArg State.result h)

/-- So does a write of any word to `CMD`, but for the reply to the host (R201, R212). -/
theorem runWord_ok_or_error {w : Word} {s t : State} (h : runWord exec w s = .next t) :
    t.result = 0 ∨ ∃ code, t = (s.setResult code).reply .written := by
  rcases runWord_cases h with rfl | ⟨i, u, he, rfl⟩
  · exact .inr ⟨codeIllegal, rfl⟩
  · exact (exec_cases he).ok_or_error.imp_right fun ⟨code, hu⟩ => ⟨code, by rw [hu]⟩

/-- The result codes other than 0, as RESULT holds them (R200). -/
theorem code_of_zeroExtend_ne_zero (code : BitVec 2) :
    code.zeroExtend 32 ≠ 0 → code.zeroExtend 32 = 1 ∨ code.zeroExtend 32 = 2 ∨ code.zeroExtend 32 = 3 := by
  decide +revert

/-- Settles O18: RESULT not 0 leaves the second case of `runWord_ok_or_error`. -/
theorem errorChangesOnlyResult : Obligations.ErrorChangesOnlyResult := by
  intro w s t run nonzero
  obtain ⟨code, rfl⟩ := (runWord_ok_or_error run).resolve_left nonzero
  exact ⟨code_of_zeroExtend_ne_zero code nonzero, rfl⟩

end Sys2Proof.Machine
end

section
/-! PROOFS. Power-on reset and the waiting engine (70_reset_and_hazards.md R220, R221, 10_state.md R23, R24, R28), O8
and O11 to O13. -/
namespace Sys2Proof.Machine

/-- Where a step of a machine leads back to its state, so does any number of steps. -/
theorem run_of_step_self {M : Host.Core} {s : M.State} (h : M.step s = .next s) (k : Nat) : M.run k s = .next s := by
  induction k with
  | zero => rfl
  | succ k ih =>
    rw [Host.Core.run, h]
    exact ih

/-- Settles O8: a step with nothing pending changes nothing (R221); the host port the model starts with is empty (log
entry 5). -/
theorem engineWaitsForTheHost : Obligations.EngineWaitsForTheHost :=
  ⟨fun _ k idle => run_of_step_self (M := core) (step_idle idle) k, rfl⟩

/-- No byte is listed right after reset, so each reads as DEFAULT has it (R23, R220). -/
theorem State.readDm_afterReset (cfg : AdmittedConfig) (clk dat : Bool) (i : Nat) :
    (State.afterReset cfg clk dat).readDm i = cfg.config.defaultPattern.getD i 0 := rfl

/-- A power-on reset leaves Display Memory as the state after reset has it (R220). -/
theorem State.readDm_powerOn (s : State) (clk dat : Bool) (i : Nat) :
    (s.powerOn clk dat).readDm i = s.config.defaultPattern.getD i 0 := State.readDm_afterReset s.cfg clk dat i

/-- A reset meets the invariant whatever the configuration and the levels drawn (R23, R24). -/
theorem State.inv_afterReset (cfg : AdmittedConfig) (clk dat : Bool) : (State.afterReset cfg clk dat).Inv :=
  ⟨rfl, BitVec.extractLsb'_zero⟩

/-- Settles O11: the reset is served as the host action it is, on the state with that action taken. -/
theorem powerOnReset : Obligations.PowerOnReset := by
  intro s clk dat rest pending
  exact ⟨_, step_eq_serve pending, fun i _ => State.readDm_powerOn _ clk dat i, rfl, rfl, rfl, rfl, rfl, rfl, rfl⟩

/-- Settles O12: the state after reset is `State.afterReset` at the installed configuration and its draws. -/
theorem resetState : Obligations.ResetState :=
  ⟨fun i _ => State.readDm_afterReset _ _ _ i, rfl, rfl, rfl, rfl⟩

/-- Settles O13: every reset meets the invariant. -/
theorem resetMeetsInvariant : Obligations.ResetMeetsInvariant := State.inv_afterReset _ _ _

end Sys2Proof.Machine
end

section
/-! PROOFS. The CO2 segments that carry over until CLR (70_reset_and_hazards.md R226, 43_field_encoder.md R161), O50. -/
namespace Sys2Proof.Machine

/-- The bytes CO2 values are ORed into show Table A digits (R161). -/
theorem mem_tableABytes_of_co2 {l : Layout} {b : Nat} (hb : b ∈ [l.co2H, l.co2T]) : b ∈ l.tableABytes := by
  simp only [List.mem_cons, List.not_mem_nil, or_false] at hb
  rcases hb with rfl | rfl <;> simp [Layout.tableABytes]

theorem State.co2OrBytes_below (s : State) {b : Nat} (hb : b ∈ [s.config.layout.co2H, s.config.layout.co2T]) :
    b < s.config.n := s.tableABytes_below (mem_tableABytes_of_co2 hb)

/-- What one CO2 value does to the hundreds and tens bytes of an engine of configuration `c` (R161). -/
theorem exec_setfCo2_ors {v : Int} (admits : fieldAdmits .co2 v) {s : State} {c : Config} (hc : s.config = c) :
    ∃ t, exec (.setfCo2 v) s = .next t ∧ t.config = c
      ∧ t.readDm c.layout.co2H = s.readDm c.layout.co2H ||| tableA c (v.toNat / 100 + 1)
      ∧ t.readDm c.layout.co2T = s.readDm c.layout.co2T ||| tableA c (v.toNat / 10 % 10 + 1) := by
  subst hc
  obtain ⟨t, completed, ⟨-, -, -, cfg, -⟩, hundreds, tens, -⟩ := (setCo2OrsHundredsAndTens v s).1 admits
  exact ⟨t, completed, congrArg AdmittedConfig.config cfg, hundreds, tens⟩

/-- CLR leaves 0 in every byte of Display Memory (R191). -/
theorem exec_clr_clears {s : State} {c : Config} (hc : s.config = c) :
    ∃ t, exec .clr s = .next t ∧ t.config = c ∧ ∀ i, i < c.n → t.readDm i = 0 := by
  subst hc
  obtain ⟨t, completed, ⟨-, -, -, cfg, -⟩, bytes, -⟩ := clrClearsAndSends s
  exact ⟨t, completed, congrArg AdmittedConfig.config cfg, bytes⟩

/-- Settles O50: each value ORs its patterns into what stands in the two bytes, which after CLR is 0. -/
theorem co2CarriesOverUntilCleared : Obligations.Co2CarriesOverUntilCleared := by
  intro v₁ v₂ s admits₁ admits₂
  obtain ⟨t, first, cfgT, hundredsT, tensT⟩ := exec_setfCo2_ors admits₁ (s := s) rfl
  obtain ⟨u, second, cfgU, hundredsU, tensU⟩ := exec_setfCo2_ors admits₂ cfgT
  obtain ⟨w, cleared, cfgW, zero⟩ := exec_clr_clears cfgU
  obtain ⟨x, again, -, hundredsX, tensX⟩ := exec_setfCo2_ors admits₂ cfgW
  refine ⟨t, u, w, x, first, second, cleared, again, ?_, ?_, ?_, ?_⟩
  · rw [hundredsU, hundredsT]
  · rw [tensU, tensT]
  · rw [hundredsX, zero _ (s.co2OrBytes_below List.mem_cons_self)]
    exact BitVec.zero_or
  · rw [tensX, zero _ (s.co2OrBytes_below (List.mem_cons_of_mem _ List.mem_cons_self))]
    exact BitVec.zero_or

end Sys2Proof.Machine
end

section
/-! PROOFS. The bits FILL leaves behind (70_reset_and_hazards.md R229, 41_display_memory.md R122), O51. -/
namespace Sys2Proof.Machine

/-- Bits that are set stay set when others are ORed in. -/
theorem or_and_of_and_eq {old m : Byte} (set : old &&& m = m) (p : Byte) : (old ||| p) &&& m = m := by
  rw [BitVec.and_or_distrib_right, set]
  ext k hk
  simp only [BitVec.getElem_or, BitVec.getElem_and]
  cases m[k] <;> simp

theorem eq_ones_of_low_of_top {x : Byte} (low : x &&& 0x7F = 0x7F) (top : x.getLsbD 7 = true) : x = 0xFF := by
  decide +revert

/-- The bits left behind in a state `t`, at the bytes and in the masks of any state `s` of the same configuration. -/
theorem State.lit_iff {s t : State} (hc : t.cfg = s.cfg) : t.Lit ↔
    (∀ b ∈ [s.config.layout.co2H, s.config.layout.co2T], t.readDm b &&& 0x7F = 0x7F)
      ∧ ∀ i < s.config.n, ∀ k < 8, (∀ g, (s.config.layout.footprintAt g i).getLsbD k = false) →
        (t.readDm i).getLsbD k = true := by
  rw [State.Lit, State.config, hc, List.forall_mem_cons, List.forall_mem_singleton, and_assoc]

/-- Where every byte is 0xFF every bit is set (R122). -/
theorem State.lit_of_ones {s : State} (ones : ∀ i, i < s.config.n → s.readDm i = 0xFF) : s.Lit := by
  have bits : ∀ k < 8, (0xFF : Byte).getLsbD k = true := by decide
  refine (State.lit_iff rfl).mpr ⟨fun b hb => ?_, fun i hi k hk _ => ?_⟩
  · rw [ones b (s.co2OrBytes_below hb)]
    rfl
  · rw [ones i hi, bits k hk]

section
variable {s t : State} {b : Nat} (hb : b ∈ [s.config.layout.co2H, s.config.layout.co2T])
include hb

/-- A `SETF` of CO2 only adds bits to its hundreds and tens bytes (R161). -/
theorem setfCo2_ors {v : Int} (h : exec (setfCommand .co2 v) s = .next t) : ∃ p, t.readDm b = s.readDm b ||| p := by
  rcases setf_cases h with ⟨-, -, merged⟩ | ⟨-, rfl⟩
  · simp only [List.mem_cons, List.not_mem_nil, or_false] at hb
    rcases hb with rfl | rfl
    · exact ⟨_, merged.readDm_orA List.mem_cons_self⟩
    · exact ⟨_, merged.readDm_orA (List.mem_cons_of_mem _ List.mem_cons_self)⟩
  · exact ⟨0, BitVec.or_zero.symm⟩

/-- The CO2 footprint at its hundreds and tens bytes (43_field_encoder.md R163). -/
theorem State.footprintAt_co2 : s.config.layout.footprintAt .co2 b = 0x7F := by
  refine maskAt_eq_of_mem (s.nodup_footprint .co2) ?_
  simp only [List.mem_cons, List.not_mem_nil, or_false] at hb
  rcases hb with rfl | rfl <;> simp [Layout.footprint]

/-- Once set, bits 6:0 of the two bytes stay set: CO2 only ORs into them, and they are in no other field's footprint. -/
theorem setf_keeps_co2Bits {f : Field} {v : Int} (h : exec (setfCommand f v) s = .next t)
    (set : s.readDm b &&& 0x7F = 0x7F) : t.readDm b &&& 0x7F = 0x7F := by
  by_cases hf : f = .co2
  · subst hf
    obtain ⟨p, ored⟩ := setfCo2_ors hb h
    rw [ored, or_and_of_and_eq set]
  · have others := (fieldsDoNotInterfere f v s t h).2 .co2 (Ne.symm hf) b
    rw [State.footprintAt_co2 hb] at others
    exact others.trans set

end

/-- The bits left behind depend on the configuration and the bytes alone. -/
theorem State.Lit.congr {s t : State} (lit : s.Lit) (hc : t.cfg = s.cfg) (reads : ∀ j, t.readDm j = s.readDm j) :
    t.Lit := by
  simpa only [State.lit_iff hc, reads] using (State.lit_iff rfl).mp lit

/-- Every `SETF` of a known field leaves the bits set: those of CO2 by `setf_keeps_co2Bits`, the others by R164. -/
theorem State.Lit.of_setf {f : Field} {v : Int} {s t : State} (lit : s.Lit) (h : exec (setfCommand f v) s = .next t) :
    t.Lit := by
  obtain ⟨co2, free⟩ := (State.lit_iff rfl).mp lit
  refine (State.lit_iff (exec_cases h).cfg_eq).mpr ⟨fun b hb => setf_keeps_co2Bits hb h (co2 b hb), ?_⟩
  intro i hi k hk outside
  rw [(setf_keepsOutside h).getLsbD hk (outside f)]
  exact free i hi k hk outside

/-- After FILL the bits it leaves behind are set (R122). -/
theorem exec_fill_lit {s t : State} (h : exec .fill s = .next t) : t.Lit := by
  obtain ⟨t', completed, ⟨-, -, -, cfg, -⟩, ones, -⟩ := fillSetsAndSends s
  cases completed.symm.trans h
  rw [State.config, ← cfg] at ones
  exact State.lit_of_ones ones

/-- R229: a command that is neither CLR nor LDEF is FILL, or a `SETF` of a known field, or leaves Display Memory
alone. -/
theorem State.Lit.of_exec {i : Instr} {s t : State} (lit : s.Lit) (hi : i ∉ [Instr.clr, Instr.ldef])
    (h : exec i s = .next t) : t.Lit := by
  by_cases fill : i = .fill
  · subst fill
    exact exec_fill_lit h
  · have notWhole : i ∉ [Instr.clr, Instr.fill, Instr.ldef] := by simpa [fill] using hi
    rcases setf_or_keepsDm notWhole with ⟨f, v, rfl⟩ | keeps
    · exact lit.of_setf h
    · exact lit.congr (exec_cases h).cfg_eq (keeps s t h)

/-- Where no field has bit 7 of the two CO2 bytes, that bit is outside all footprints (R166). -/
theorem State.Lit.readDm_co2 {s : State} (lit : s.Lit) (reserved : s.config.layout.reservesTopBits = true) :
    ∀ b ∈ [s.config.layout.co2H, s.config.layout.co2T], s.readDm b = 0xFF := by
  intro b hb
  obtain ⟨co2, free⟩ := (State.lit_iff rfl).mp lit
  have top := topBit_of_reserves reserved (mem_tableABytes_of_co2 hb)
  exact eq_ones_of_low_of_top (co2 b hb) (free b (s.co2OrBytes_below hb) 7 (by decide) top)

/-- Settles O51: the two bytes are the ones `State.Lit.readDm_co2` lists. -/
theorem fillLeavesBitsBehind : Obligations.FillLeavesBitsBehind :=
  ⟨fun _ _ => exec_fill_lit, fun _ _ _ hi lit => lit.of_exec hi,
    fun _ lit reserved => ⟨lit.readDm_co2 reserved _ List.mem_cons_self,
      lit.readDm_co2 reserved _ (List.mem_cons_of_mem _ List.mem_cons_self)⟩⟩

end Sys2Proof.Machine
end
